-- ==== Sys2Proof/Word.lean ====
section
/-! DEFINITION. The word types of the USB device endpoint engine: bytes, 32-bit words (R60, R95),
`LEN_WIDTH`-bit counters (R8, R9, R195) and the endpoint number type. -/

namespace Sys2Proof

/-- A byte is 8 bits (R9). -/
abbrev Byte := BitVec 8

/-- A 32-bit quantity: a system-memory address (`ADDR_WIDTH = 32`, R60), a command word (R95), or a
reference the class driver hands over (a request handle, a callback, a driver). -/
abbrev Word := BitVec 32

/-- A length or byte counter: `LEN_WIDTH = 16` bits, unsigned (R8, R195). -/
abbrev Len := BitVec 16

/-- An 8-byte SETUP packet as a little-endian 64-bit value (R80, R81; the opcode table's SETUP64 form). -/
abbrev SetupPacket := BitVec 64

/-- An endpoint number or DMA channel number: four bits wide in the command word (R95) and sixteen
interrupt bits wide in `INT_PENDING` (R100). Which of the sixteen exist is `NUM_EP` (R8). -/
abbrev EpIx := Fin 16

/-- A reference of the class driver: a request handle, a callback function or a driver. -/
abbrev Ref := Word

/-- The null reference (R30, R35: "reference or null"). -/
def nullRef : Ref := 0

/-- The unsigned minimum of two counters (R9, R195). -/
def lenMin (a b : Len) : Len := if a ≤ b then a else b

/-- Every endpoint and channel number, in increasing order (R300, R302). -/
def allIx : List EpIx := [0, 1, 2, 3, 4, 5, 6, 7, 8, 9, 10, 11, 12, 13, 14, 15]

end Sys2Proof
end

