-- ==== Sys2Proof/Syntax.lean ====
section
/-! DEFINITION. The instructions of the engine: one constructor for each mnemonic of the opcode table.
Three kinds of words spell them: driver-to-engine command words (R95), bus and DMA stimulus records (R97)
and 8-byte SETUP packets (R80 to R85). A mnemonic that the table spreads over several bit patterns
(INVALID_COMMAND, SETUP_UNKNOWN_STANDARD) is one constructor that carries the bits the patterns leave open. -/

namespace Sys2Proof

/-- Transfer type of an endpoint (R22), in the order of its two-bit code (R90). -/
inductive EpType where
  /-- Code 0. -/
  | control
  /-- Code 1. -/
  | isochronous
  /-- Code 2. -/
  | bulk
  /-- Code 3. -/
  | interrupt
deriving DecidableEq, Repr

/-- The endpoint descriptor operand of `configure_endpoint` (R90): `epaddr`, the attributes byte, and the
16-bit max-packet size. -/
structure EpDesc where
  epaddr : Byte
  attrs  : Byte
  mps    : Len
deriving DecidableEq, Repr

/-- The fields of a SETUP packet that its mnemonic leaves open (R81): direction bit, recipient, value,
index and length. The type bits and, for a standard request, the request code are the constructor's. -/
structure SetupArgs where
  dirIn  : Bool
  recip  : BitVec 5
  value  : BitVec 16
  index  : BitVec 16
  length : BitVec 16
deriving DecidableEq, Repr

/-- The instructions (opcode table). Operands that the table calls "handle argument" are the reference or
descriptor the class driver passes beside the command word (R95); stimulus operands are the record's
arguments (R97). -/
inductive Instr where
  -- driver-to-engine operations (R95, R120 to R164)
  /-- CONFIGURE_ENDPOINT (R120). -/
  | configureEndpoint (ep : EpIx) (desc : EpDesc)
  /-- DISABLE_ENDPOINT (R124). -/
  | disableEndpoint (ep : EpIx)
  /-- ALLOCATE_REQUEST (R126). -/
  | allocateRequest
  /-- FREE_REQUEST (R127). The table gives the word an endpoint field, which R127 does not read. -/
  | freeRequest (ep : EpIx) (req : Ref)
  /-- SUBMIT (R130). -/
  | submit (ep : EpIx) (req : Ref)
  /-- CANCEL (R136). -/
  | cancel (ep : EpIx) (req : Ref)
  /-- STALL: op 0x07 with the flag bit 0 (R140). -/
  | stall (ep : EpIx)
  /-- RESUME_STALL: op 0x07 with the flag bit 1 (R141). -/
  | resumeStall (ep : EpIx)
  /-- ALLOCATE_ENDPOINT (R146): logical number, direction (`true` is IN) and type. -/
  | allocateEndpoint (logical : EpIx) (dirIn : Bool) (type : EpType)
  /-- FREE_ENDPOINT (R148). -/
  | freeEndpoint (ep : EpIx)
  /-- GET_FRAME_NUMBER (R152). -/
  | getFrameNumber
  /-- WAKEUP (R154). -/
  | wakeup
  /-- SET_SELF_POWERED (R156). -/
  | setSelfPowered (flag : Bool)
  /-- SET_PULLUP (R158). -/
  | setPullup (flag : Bool)
  /-- BIND (R160). -/
  | bind (driver : Ref)
  /-- UNBIND (R162). -/
  | unbind
  /-- INVALID_COMMAND: any other command word (R164). -/
  | invalidCommand (word : Word)
  -- bus and DMA stimuli (R97)
  /-- BUS_BUSRESET, code 0x80. -/
  | busBusreset
  /-- BUS_SUSPEND, code 0x81. -/
  | busSuspend
  /-- BUS_RESUME, code 0x82. -/
  | busResume
  /-- BUS_SOF, code 0x83: the frame number sent. -/
  | busSof (frame : BitVec 16)
  /-- BUS_UPRESUME, code 0x84. -/
  | busUpresume
  /-- BUS_SETUP, code 0x85: endpoint and the eight SETUP bytes. -/
  | busSetup (ep : EpIx) (packet : SetupPacket)
  /-- BUS_RXPKT, code 0x86: endpoint and the packet's bytes in wire order. -/
  | busRxpkt (ep : EpIx) (bytes : List Byte)
  /-- BUS_TXDONE, code 0x87. -/
  | busTxdone (ep : EpIx)
  /-- BUS_STALLSENT, code 0x88. -/
  | busStallsent (ep : EpIx)
  /-- BUS_DMA_EOB, code 0x89: channel and remaining count. -/
  | busDmaEob (chan : EpIx) (rem : BitVec 16)
  /-- BUS_DMA_EOC, code 0x8A. -/
  | busDmaEoc (chan : EpIx)
  /-- BUS_DMA_ERR, code 0x8B. -/
  | busDmaErr (chan : EpIx)
  /-- BUS_RWAKE_DONE, code 0x8C. -/
  | busRwakeDone
  -- SETUP requests received on EP0 (R80 to R85, R240 to R256)
  /-- SETUP_GET_STATUS (R242). -/
  | setupGetStatus (args : SetupArgs)
  /-- SETUP_CLEAR_FEATURE (R245). -/
  | setupClearFeature (args : SetupArgs)
  /-- SETUP_SET_FEATURE (R246). -/
  | setupSetFeature (args : SetupArgs)
  /-- SETUP_SET_ADDRESS (R248). -/
  | setupSetAddress (args : SetupArgs)
  /-- SETUP_GET_DESCRIPTOR (R249). -/
  | setupGetDescriptor (args : SetupArgs)
  /-- SETUP_SET_DESCRIPTOR (R250). -/
  | setupSetDescriptor (args : SetupArgs)
  /-- SETUP_GET_CONFIGURATION (R251). -/
  | setupGetConfiguration (args : SetupArgs)
  /-- SETUP_SET_CONFIGURATION (R252). -/
  | setupSetConfiguration (args : SetupArgs)
  /-- SETUP_GET_INTERFACE (R253). -/
  | setupGetInterface (args : SetupArgs)
  /-- SETUP_SET_INTERFACE (R254). -/
  | setupSetInterface (args : SetupArgs)
  /-- SETUP_SYNCH_FRAME (R256). -/
  | setupSynchFrame (args : SetupArgs)
  /-- SETUP_UNKNOWN_STANDARD: a standard request code the spec does not name (R255). -/
  | setupUnknownStandard (code : Byte) (args : SetupArgs)
  /-- SETUP_NONSTANDARD_CLASS: type 1 (R240). -/
  | setupNonstandardClass (code : Byte) (args : SetupArgs)
  /-- SETUP_NONSTANDARD_VENDOR: type 2 (R240). -/
  | setupNonstandardVendor (code : Byte) (args : SetupArgs)
  /-- SETUP_NONSTANDARD_RESERVED_TYPE: type 3 (R240). -/
  | setupNonstandardReservedType (code : Byte) (args : SetupArgs)
deriving DecidableEq, Repr

end Sys2Proof
end

