-- ==== Sys2Proof/Config.lean ====
section
/-! DEFINITION. What an implementation of the engine fixes (R8) and the values that stay free.
The parameters of R8 are one structure, carried unchanged by the machine's state, so that a statement about
every state is a statement about every implementation; `Params.nominal` is the set the spec's own vectors
name (95_test_vectors.md, section 0). -/

namespace Sys2Proof

/-- `EOC_INCOMPLETE_POLICY` (R206): what an end-of-channel completion does when bytes are missing. -/
inductive EocPolicy where
  | wait
  | completeOk
deriving DecidableEq, Repr

/-- The implementation parameters of R8. `GEOMETRY_OK` and `EP_SUPPORTS` are total Boolean functions over
finite domains (the bank count is fixed by the endpoint), given by the arguments they refuse. -/
structure Params where
  /-- `NUM_EP`, 1 to 16. -/
  numEp : Nat
  /-- `EP_BANKS(i)`, at least 1. -/
  epBanks : Vector Nat 16
  /-- `EP_HAS_DMA(i)` for i above 0. -/
  dmaMap : Vector Bool 16
  /-- `DMA_FIFO_CAP`, at least 1 byte. -/
  dmaFifoCap : Len
  /-- `NUM_DMA_DESC`. -/
  numDmaDesc : Nat
  /-- `EP0_MAXPACKET`. -/
  ep0MaxPacket : Len
  /-- `EP0_SCRATCH_SIZE`, at least `EP0_MAXPACKET` bytes. -/
  ep0ScratchSize : Nat
  /-- `WAKEUP_SPIN_BOUND`, at least 1. -/
  wakeupSpinBound : Nat
  /-- The (endpoint, type, mps, banks) for which `GEOMETRY_OK` is false. -/
  geometryRefused : List (EpIx × EpType × Len × Nat)
  /-- The (endpoint, type) for which `EP_SUPPORTS` is false. -/
  unsupported : List (EpIx × EpType)
  /-- `EOC_INCOMPLETE_POLICY`. -/
  eocPolicy : EocPolicy
  /-- `SOF_IRQ_EN`. -/
  sofIrqEn : Bool
deriving DecidableEq, Repr

/-- The bounds R8 puts on the parameters. -/
def Params.wf (p : Params) : Bool :=
  decide (1 ≤ p.numEp ∧ p.numEp ≤ 16) && allIx.all (fun i => decide (1 ≤ p.epBanks.get i)) &&
  decide (1#16 ≤ p.dmaFifoCap) && decide (p.ep0MaxPacket.toNat ≤ p.ep0ScratchSize) &&
  decide (1 ≤ p.wakeupSpinBound)

/-- Parameter set P of the spec's test vectors (95_test_vectors.md, section 0). -/
def Params.nominal : Params where
  numEp := 4
  epBanks := #v[2, 2, 2, 2, 2, 2, 2, 2, 2, 2, 2, 2, 2, 2, 2, 2]
  dmaMap := #v[false, false, false, false, false, false, false, false,
    false, false, false, false, false, false, false, false]
  dmaFifoCap := 4096
  numDmaDesc := 4
  ep0MaxPacket := 64
  ep0ScratchSize := 64
  wakeupSpinBound := 4
  geometryRefused := []
  unsupported := []
  eocPolicy := .wait
  sofIrqEn := false

/-- A byte the spec leaves open (assumption 1): the bytes a DMA channel received or left behind, a byte the
class driver wrote into a buffer it does not own, a byte read past the end of a bank. The model applies it
to a counter that every draw advances; nothing can evaluate it. -/
opaque Config.freeByte : Nat → Byte

/-- How many bytes a DMA channel had taken from the endpoint's FIFO when its OUT slice was stopped or failed
(assumptions 1 and 19): the spec leaves it open (I14). Applied to the same counter as `Config.freeByte`. -/
opaque Config.freeCount : Nat → Nat

/-- `REG_BASE` (R67): a parameter on which no rule depends; registers are addressed by name (R106). -/
opaque Config.regBase : Word

/-- `FIFO_BASE` (R67): a parameter on which no rule depends. -/
opaque Config.fifoBase : Word

/-- The upper 28 bits of `DESC_BASE` (R67), which is a multiple of 16 (R64). -/
opaque Config.descPage : BitVec 28

/-- `DESC_BASE`, 16-byte aligned (R64, R67). -/
def Config.descBase : Word := Config.descPage ++ 0#4

end Sys2Proof
end

