-- ==== Sys2Proof/WellFormed.lean ====
section
/-! DEFINITION. Well-formed instructions: the terms of `Instr` that some word of the spec's encodings
spells. Only three constructors carry operands that not every value of their type encodes. -/

namespace Sys2Proof

/-- A command word that spells no operation: its `op` is not one of 0x01 to 0x0F, or a bit of 31:15 is set
(R95, R164). -/
def isInvalidCommand (w : Word) : Bool :=
  w.extractLsb' 15 17 != 0 || w.extractLsb' 0 8 == 0 || w.extractLsb' 4 4 != 0

/-- A standard request code that R85 does not name: not in {0x00, 0x01, 0x03, 0x05 .. 0x0C} (R85, R255). -/
def isUnknownRequest (code : Byte) : Bool :=
  code == 0x02 || code == 0x04 || decide (0x0D#8 ≤ code)

/-- The check a term must pass to be the reading of some word. A received packet's length must fit the
16-bit `BYTECNT` (R101). -/
def Instr.wellFormed : Instr → Bool
  | .configureEndpoint _ _ => true
  | .disableEndpoint _ => true
  | .allocateRequest => true
  | .freeRequest _ _ => true
  | .submit _ _ => true
  | .cancel _ _ => true
  | .stall _ => true
  | .resumeStall _ => true
  | .allocateEndpoint _ _ _ => true
  | .freeEndpoint _ => true
  | .getFrameNumber => true
  | .wakeup => true
  | .setSelfPowered _ => true
  | .setPullup _ => true
  | .bind _ => true
  | .unbind => true
  | .invalidCommand w => isInvalidCommand w
  | .busBusreset => true
  | .busSuspend => true
  | .busResume => true
  | .busSof _ => true
  | .busUpresume => true
  | .busSetup _ _ => true
  | .busRxpkt _ bytes => decide (bytes.length < 2 ^ 16)
  | .busTxdone _ => true
  | .busStallsent _ => true
  | .busDmaEob _ _ => true
  | .busDmaEoc _ => true
  | .busDmaErr _ => true
  | .busRwakeDone => true
  | .setupGetStatus _ => true
  | .setupClearFeature _ => true
  | .setupSetFeature _ => true
  | .setupSetAddress _ => true
  | .setupGetDescriptor _ => true
  | .setupSetDescriptor _ => true
  | .setupGetConfiguration _ => true
  | .setupSetConfiguration _ => true
  | .setupGetInterface _ => true
  | .setupSetInterface _ => true
  | .setupSynchFrame _ => true
  | .setupUnknownStandard code _ => isUnknownRequest code
  | .setupNonstandardClass _ _ => true
  | .setupNonstandardVendor _ _ => true
  | .setupNonstandardReservedType _ _ => true

end Sys2Proof
end

