-- ==== Sys2Proof/Decode.lean ====
section
/-! DEFINITION. The decoder and the encoder. The engine has three instruction ports and each has its own
format (R80): the command port takes a 32-bit command word and a handle argument (R95), the stimulus port a
code byte and its arguments (R97), and EP0's SETUP bank an 8-byte packet (R81). A command word and its
argument are laid out least significant byte first; the layout of arguments is the model's own
(assumption 5). -/

namespace Sys2Proof

/-- The port that takes an instruction. -/
inductive Port where
  /-- The class driver's command words (R95). -/
  | command
  /-- The bus and DMA agents' stimulus records (R97). -/
  | stimulus
  /-- The SETUP bank of endpoint 0 (R81, R230). -/
  | setup
deriving DecidableEq, Repr

/-- Why bytes decode to no instruction. -/
inductive DecodeError where
  /-- Fewer bytes than the port's format needs. -/
  | truncated
  /-- A stimulus code outside 0x80 to 0x8C (R97). -/
  | unknownStimulus
  /-- An endpoint or channel byte above 15 (R8, R100). -/
  | noSuchEndpoint
deriving DecidableEq, Repr

/-! ### Bytes and numbers -/

/-- The number that bytes spell, least significant byte first (R62). -/
def natOfBytes : List Byte → Nat
  | [] => 0
  | b :: rest => b.toNat + 256 * natOfBytes rest

/-- The `n` low bytes of a number, least significant byte first (R62). -/
def bytesOfNat : Nat → Nat → List Byte
  | 0, _ => []
  | n + 1, x => BitVec.ofNat 8 x :: bytesOfNat n (x / 256)

/-- Split off the first `n` bytes, if there are that many. -/
def takeBytes (n : Nat) (bs : List Byte) : Option (List Byte × List Byte) :=
  if bs.length < n then none else some (bs.take n, bs.drop n)

/-! ### Two-bit transfer types and operands -/

/-- The transfer type a two-bit code names (R90). -/
def epTypeOfBits (v : BitVec 2) : EpType :=
  match v.toNat with
  | 0 => .control
  | 1 => .isochronous
  | 2 => .bulk
  | _ => .interrupt

/-- The two-bit code of a transfer type (R90). -/
def bitsOfEpType : EpType → BitVec 2
  | .control => 0
  | .isochronous => 1
  | .bulk => 2
  | .interrupt => 3

/-- The descriptor in an argument word: `epaddr`, the attributes byte, then `mps` little-endian, the order of
bEndpointAddress, bmAttributes and wMaxPacketSize (R90). -/
def descOfWord (a : Word) : EpDesc :=
  { epaddr := a.extractLsb' 0 8, attrs := a.extractLsb' 8 8, mps := a.extractLsb' 16 16 }

/-- The argument word of a descriptor. -/
def wordOfDesc (d : EpDesc) : Word := d.mps ++ d.attrs ++ d.epaddr

/-! ### Command words (R95) -/

/-- `CMD[7:0] = op`. -/
def cmdOp (w : Word) : BitVec 8 := w.extractLsb' 0 8

/-- `CMD[11:8] = ep`. -/
def cmdEp (w : Word) : EpIx := (w.extractLsb' 8 4).toFin

/-- `CMD[12] = flag`. -/
def cmdFlag (w : Word) : Bool := w.getLsbD 12

/-- `CMD[14:13] = type`. -/
def cmdType (w : Word) : EpType := epTypeOfBits (w.extractLsb' 13 2)

/-- The instruction a command word and its handle argument spell. Every word spells one: what is no
operation is INVALID_COMMAND (R95, R164). -/
def decodeCommand (w arg : Word) : Instr :=
  if w.extractLsb' 15 17 ≠ 0 then .invalidCommand w
  else match (cmdOp w).toNat with
    | 0x01 => .configureEndpoint (cmdEp w) (descOfWord arg)
    | 0x02 => .disableEndpoint (cmdEp w)
    | 0x03 => .allocateRequest
    | 0x04 => .freeRequest (cmdEp w) arg
    | 0x05 => .submit (cmdEp w) arg
    | 0x06 => .cancel (cmdEp w) arg
    | 0x07 => if cmdFlag w then .resumeStall (cmdEp w) else .stall (cmdEp w)
    | 0x08 => .allocateEndpoint (cmdEp w) (cmdFlag w) (cmdType w)
    | 0x09 => .freeEndpoint (cmdEp w)
    | 0x0A => .getFrameNumber
    | 0x0B => .wakeup
    | 0x0C => .setSelfPowered (cmdFlag w)
    | 0x0D => .setPullup (cmdFlag w)
    | 0x0E => .bind arg
    | 0x0F => .unbind
    | _ => .invalidCommand w

/-- Decode the command port: the command word, then the 32-bit handle argument. -/
def decodeCommandBytes (bs : List Byte) : Except DecodeError (Instr × List Byte) :=
  match takeBytes 8 bs with
  | none => .error .truncated
  | some (rec, rest) =>
    .ok (decodeCommand (BitVec.ofNat 32 (natOfBytes (rec.take 4))) (BitVec.ofNat 32 (natOfBytes (rec.drop 4))), rest)

/-! ### Stimulus records (R97) -/

/-- Read an endpoint or channel byte and hand the rest on. -/
def withIx (bs : List Byte) (k : EpIx → List Byte → Except DecodeError (Instr × List Byte)) :
    Except DecodeError (Instr × List Byte) :=
  match bs with
  | [] => .error .truncated
  | b :: rest => if h : b.toNat < 16 then k ⟨b.toNat, h⟩ rest else .error .noSuchEndpoint

/-- Read `n` bytes as a number and hand the rest on. -/
def withNat (n : Nat) (bs : List Byte) (k : Nat → List Byte → Except DecodeError (Instr × List Byte)) :
    Except DecodeError (Instr × List Byte) :=
  match takeBytes n bs with
  | none => .error .truncated
  | some (v, rest) => k (natOfBytes v) rest

/-- Decode a stimulus record: the code byte of R97, then its arguments in R97's order, numbers in two bytes
little-endian and a received packet as its length and its bytes. -/
def decodeStimulusBytes (bs : List Byte) : Except DecodeError (Instr × List Byte) :=
  match bs with
  | [] => .error .truncated
  | code :: args =>
    match code.toNat with
    | 0x80 => .ok (.busBusreset, args)
    | 0x81 => .ok (.busSuspend, args)
    | 0x82 => .ok (.busResume, args)
    | 0x83 => withNat 2 args fun f rest => .ok (.busSof (BitVec.ofNat 16 f), rest)
    | 0x84 => .ok (.busUpresume, args)
    | 0x85 => withIx args fun i rest => withNat 8 rest fun p rest => .ok (.busSetup i (BitVec.ofNat 64 p), rest)
    | 0x86 => withIx args fun i rest => withNat 2 rest fun n rest =>
        match takeBytes n rest with
        | none => .error .truncated
        | some (bytes, rest) => .ok (.busRxpkt i bytes, rest)
    | 0x87 => withIx args fun i rest => .ok (.busTxdone i, rest)
    | 0x88 => withIx args fun i rest => .ok (.busStallsent i, rest)
    | 0x89 => withIx args fun c rest => withNat 2 rest fun r rest => .ok (.busDmaEob c (BitVec.ofNat 16 r), rest)
    | 0x8A => withIx args fun c rest => .ok (.busDmaEoc c, rest)
    | 0x8B => withIx args fun c rest => .ok (.busDmaErr c, rest)
    | 0x8C => .ok (.busRwakeDone, args)
    | _ => .error .unknownStimulus

/-! ### SETUP packets (R81) -/

/-- `dir = b0[7]`, 1 is IN (R81, R82). -/
def SetupPacket.dirIn (p : SetupPacket) : Bool := p.getLsbD 7

/-- `rtype = b0[6:5]` (R81, R83). -/
def SetupPacket.rtype (p : SetupPacket) : BitVec 2 := p.extractLsb' 5 2

/-- `recip = b0[4:0]` (R81, R84). -/
def SetupPacket.recip (p : SetupPacket) : BitVec 5 := p.extractLsb' 0 5

/-- `bRequest = b1` (R81, R85). -/
def SetupPacket.request (p : SetupPacket) : Byte := p.extractLsb' 8 8

/-- `value = {b3, b2}` (R62, R81). -/
def SetupPacket.value (p : SetupPacket) : BitVec 16 := p.extractLsb' 16 16

/-- `index = {b5, b4}` (R62, R81). -/
def SetupPacket.index (p : SetupPacket) : BitVec 16 := p.extractLsb' 32 16

/-- `length = {b7, b6}` (R62, R81). -/
def SetupPacket.length (p : SetupPacket) : BitVec 16 := p.extractLsb' 48 16

/-- The operands of a SETUP packet. -/
def SetupPacket.args (p : SetupPacket) : SetupArgs :=
  { dirIn := p.dirIn, recip := p.recip, value := p.value, index := p.index, length := p.length }

/-- The instruction a SETUP packet spells: by its type bits, then by its request code (R83, R85, R234). -/
def decodeSetup (p : SetupPacket) : Instr :=
  match p.rtype.toNat with
  | 0 => match p.request.toNat with
    | 0x00 => .setupGetStatus p.args
    | 0x01 => .setupClearFeature p.args
    | 0x03 => .setupSetFeature p.args
    | 0x05 => .setupSetAddress p.args
    | 0x06 => .setupGetDescriptor p.args
    | 0x07 => .setupSetDescriptor p.args
    | 0x08 => .setupGetConfiguration p.args
    | 0x09 => .setupSetConfiguration p.args
    | 0x0A => .setupGetInterface p.args
    | 0x0B => .setupSetInterface p.args
    | 0x0C => .setupSynchFrame p.args
    | _ => .setupUnknownStandard p.request p.args
  | 1 => .setupNonstandardClass p.request p.args
  | 2 => .setupNonstandardVendor p.request p.args
  | _ => .setupNonstandardReservedType p.request p.args

/-- Decode the SETUP bank: eight bytes (R80, R81). -/
def decodeSetupBytes (bs : List Byte) : Except DecodeError (Instr × List Byte) :=
  match takeBytes 8 bs with
  | none => .error .truncated
  | some (rec, rest) => .ok (decodeSetup (BitVec.ofNat 64 (natOfBytes rec)), rest)

/-- Decode the bytes a port holds: the instruction and the bytes after its record, or the reason there is
none. -/
def decode (p : Port) (bs : List Byte) : Except DecodeError (Instr × List Byte) :=
  match p with
  | .command => decodeCommandBytes bs
  | .stimulus => decodeStimulusBytes bs
  | .setup => decodeSetupBytes bs

/-! ### The encoder -/

/-- A command word from its fields (R95); bits 31:15 are 0. -/
def packCommand (op : Byte) (ep : EpIx) (flag : Bool) (type : BitVec 2) : Word :=
  0#17 ++ type ++ BitVec.ofBool flag ++ BitVec.ofFin (w := 4) ep ++ op

/-- A SETUP packet from its fields (R81). -/
def packSetup (rtype : BitVec 2) (code : Byte) (a : SetupArgs) : SetupPacket :=
  a.length ++ a.index ++ a.value ++ code ++ BitVec.ofBool a.dirIn ++ rtype ++ a.recip

/-- The bytes of a command word and its handle argument. -/
def encodeCommand (w arg : Word) : List Byte := bytesOfNat 4 w.toNat ++ bytesOfNat 4 arg.toNat

/-- The bytes of a SETUP packet in wire order. -/
def encodeSetup (rtype : BitVec 2) (code : Byte) (a : SetupArgs) : List Byte :=
  bytesOfNat 8 (packSetup rtype code a).toNat

/-- The byte of an endpoint or channel operand of a stimulus record. -/
def ixByte (i : EpIx) : Byte := BitVec.ofNat 8 i.val

/-- The record of an instruction: the bytes its port takes. Fields the operation does not read are 0. -/
def encode : Instr → List Byte
  | .configureEndpoint ep desc => encodeCommand (packCommand 0x01 ep false 0) (wordOfDesc desc)
  | .disableEndpoint ep => encodeCommand (packCommand 0x02 ep false 0) 0
  | .allocateRequest => encodeCommand (packCommand 0x03 0 false 0) 0
  | .freeRequest ep req => encodeCommand (packCommand 0x04 ep false 0) req
  | .submit ep req => encodeCommand (packCommand 0x05 ep false 0) req
  | .cancel ep req => encodeCommand (packCommand 0x06 ep false 0) req
  | .stall ep => encodeCommand (packCommand 0x07 ep false 0) 0
  | .resumeStall ep => encodeCommand (packCommand 0x07 ep true 0) 0
  | .allocateEndpoint n dirIn type => encodeCommand (packCommand 0x08 n dirIn (bitsOfEpType type)) 0
  | .freeEndpoint ep => encodeCommand (packCommand 0x09 ep false 0) 0
  | .getFrameNumber => encodeCommand (packCommand 0x0A 0 false 0) 0
  | .wakeup => encodeCommand (packCommand 0x0B 0 false 0) 0
  | .setSelfPowered flag => encodeCommand (packCommand 0x0C 0 flag 0) 0
  | .setPullup flag => encodeCommand (packCommand 0x0D 0 flag 0) 0
  | .bind driver => encodeCommand (packCommand 0x0E 0 false 0) driver
  | .unbind => encodeCommand (packCommand 0x0F 0 false 0) 0
  | .invalidCommand w => encodeCommand w 0
  | .busBusreset => [0x80]
  | .busSuspend => [0x81]
  | .busResume => [0x82]
  | .busSof f => 0x83 :: bytesOfNat 2 f.toNat
  | .busUpresume => [0x84]
  | .busSetup i p => 0x85 :: ixByte i :: bytesOfNat 8 p.toNat
  | .busRxpkt i bytes => 0x86 :: ixByte i :: (bytesOfNat 2 bytes.length ++ bytes)
  | .busTxdone i => [0x87, ixByte i]
  | .busStallsent i => [0x88, ixByte i]
  | .busDmaEob c r => 0x89 :: ixByte c :: bytesOfNat 2 r.toNat
  | .busDmaEoc c => [0x8A, ixByte c]
  | .busDmaErr c => [0x8B, ixByte c]
  | .busRwakeDone => [0x8C]
  | .setupGetStatus a => encodeSetup 0 0x00 a
  | .setupClearFeature a => encodeSetup 0 0x01 a
  | .setupSetFeature a => encodeSetup 0 0x03 a
  | .setupSetAddress a => encodeSetup 0 0x05 a
  | .setupGetDescriptor a => encodeSetup 0 0x06 a
  | .setupSetDescriptor a => encodeSetup 0 0x07 a
  | .setupGetConfiguration a => encodeSetup 0 0x08 a
  | .setupSetConfiguration a => encodeSetup 0 0x09 a
  | .setupGetInterface a => encodeSetup 0 0x0A a
  | .setupSetInterface a => encodeSetup 0 0x0B a
  | .setupSynchFrame a => encodeSetup 0 0x0C a
  | .setupUnknownStandard code a => encodeSetup 0 code a
  | .setupNonstandardClass code a => encodeSetup 1 code a
  | .setupNonstandardVendor code a => encodeSetup 2 code a
  | .setupNonstandardReservedType code a => encodeSetup 3 code a

/-- The port whose format an instruction has. -/
def portOf : Instr → Port
  | .configureEndpoint _ _ => .command
  | .disableEndpoint _ => .command
  | .allocateRequest => .command
  | .freeRequest _ _ => .command
  | .submit _ _ => .command
  | .cancel _ _ => .command
  | .stall _ => .command
  | .resumeStall _ => .command
  | .allocateEndpoint _ _ _ => .command
  | .freeEndpoint _ => .command
  | .getFrameNumber => .command
  | .wakeup => .command
  | .setSelfPowered _ => .command
  | .setPullup _ => .command
  | .bind _ => .command
  | .unbind => .command
  | .invalidCommand _ => .command
  | .busBusreset => .stimulus
  | .busSuspend => .stimulus
  | .busResume => .stimulus
  | .busSof _ => .stimulus
  | .busUpresume => .stimulus
  | .busSetup _ _ => .stimulus
  | .busRxpkt _ _ => .stimulus
  | .busTxdone _ => .stimulus
  | .busStallsent _ => .stimulus
  | .busDmaEob _ _ => .stimulus
  | .busDmaEoc _ => .stimulus
  | .busDmaErr _ => .stimulus
  | .busRwakeDone => .stimulus
  | .setupGetStatus _ => .setup
  | .setupClearFeature _ => .setup
  | .setupSetFeature _ => .setup
  | .setupSetAddress _ => .setup
  | .setupGetDescriptor _ => .setup
  | .setupSetDescriptor _ => .setup
  | .setupGetConfiguration _ => .setup
  | .setupSetConfiguration _ => .setup
  | .setupGetInterface _ => .setup
  | .setupSetInterface _ => .setup
  | .setupSynchFrame _ => .setup
  | .setupUnknownStandard _ _ => .setup
  | .setupNonstandardClass _ _ => .setup
  | .setupNonstandardVendor _ _ => .setup
  | .setupNonstandardReservedType _ _ => .setup

/-! ### Table words -/

/-- The port whose rows of the opcode table a word of `nbits` bits can be of. Command words are 32 bits and
SETUP packets 64 bits wide, stimulus codes 8. A row may be counted by its fixed bits alone, which end in
the first byte for a SETUP type row and in the second for a SETUP request row: an 8-bit word is then a
stimulus code, a SETUP type row (bits 6:5 not zero) or a command `op` (assumption 6). -/
def tablePort (nbits w : Nat) : Port :=
  if nbits ≤ 8 then
    if 0x80 ≤ w ∧ w ≤ 0x8C then .stimulus
    else if 0x20 ≤ w ∧ w < 0x80 then .setup
    else .command
  else if nbits = 32 then .command
  else .setup

/-- The bytes of a table word, lowest byte first, with zeros above `nbits` up to the longest record whose
length does not depend on its contents (ten bytes, a SETUP stimulus). -/
def tableBytes (nbits w : Nat) : List Byte := bytesOfNat 10 (w % 2 ^ nbits)

/-- The instruction the decoder reads from an instruction whose bits are `w`, numbered as the opcode table
numbers them, every bit above `nbits` zero. -/
def decodeTableWord (nbits w : Nat) : Option Instr :=
  match decode (tablePort nbits w) (tableBytes nbits w) with
  | .ok (i, _) => some i
  | .error _ => none

end Sys2Proof
end

