-- ==== Sys2Proof/Machine/State.lean ====
section
/-! DEFINITION. The state of the engine as plain data: the Endpoint, Request, descriptor-pool and Device
records and the controller registers (10_state.md), the FIFO banks and system memory (20_memory.md), the
callback list of the running step, and the model's own fields for what the environment does next. -/

namespace Sys2Proof.Machine

/-! ### Named values -/

/-- Endpoint direction (R22). -/
inductive EpDir where
  | dirIn
  | dirOut
  | bidir
deriving DecidableEq, Repr

/-- `EndpointState` (R23, R24); the last three are EP0's only. -/
inductive EpState where
  | disabled
  | stalled
  | idle
  | sending
  | receiving
  | ep0DataOut
  | ep0StatusIn
  | ep0Address
deriving DecidableEq, Repr

/-- `DeviceState` (R36). -/
inductive DevState where
  | suspended
  | attached
  | powered
  | default
  | address
  | configured
deriving DecidableEq, Repr

/-- The results of the engine (R316). -/
inductive Result where
  | ok
  | busy
  | shutdown
  | ioError
  | protocol
  | configError
  | invalidArgs
deriving DecidableEq, Repr

/-- Who owns a request (R30, R31). -/
inductive Owner where
  | driver
  | engine
deriving DecidableEq, Repr

/-- What the last operation returned to the class driver (R12): a result, a request handle or null
(R126), an endpoint or null (R146), or the frame number (R152). -/
inductive Ret where
  | none
  | result (r : Result)
  | request (h : Ref)
  | endpoint (e : Option EpIx)
  | frame (f : BitVec 16)
deriving DecidableEq, Repr

/-! ### Records -/

/-- A Request record (R30). -/
structure Request where
  buf      : Word
  len      : Len
  xfrd     : Len
  inflight : Len
  nullpkt  : Bool
  result   : Option Result
  /-- The completion callback's reference, `nullRef` for null. -/
  callback : Ref
  started  : Bool
  owner    : Owner
deriving DecidableEq, Repr

/-- A request as `allocate_request` makes it (R30, column "value when allocated"). -/
def Request.fresh : Request where
  buf := 0
  len := 0
  xfrd := 0
  inflight := 0
  nullpkt := false
  result := none
  callback := nullRef
  started := false
  owner := .driver

/-- `EP_STA[i]` (R41, R101); its reserved bits 15:4 read 0 and are not stored. -/
structure EpSta where
  txdone    : Bool
  rxrdy     : Bool
  stallsent : Bool
  setup     : Bool
  bytecnt   : BitVec 16
deriving DecidableEq, Repr

/-- `EP_CTL[i]` (R42, R102); its reserved bits 15:7 read 0 and are not stored. -/
structure EpCtl where
  enable      : Bool
  txpktrdy    : Bool
  forcestall  : Bool
  txdoneIe    : Bool
  rxrdyIe     : Bool
  stallsentIe : Bool
  setupIe     : Bool
  mps         : BitVec 16
deriving DecidableEq, Repr

/-- `DMA_ADDR[c]`, `DMA_COUNT[c]`, `DMA_CTL[c]` and `DMA_STA[c]` (R43, R103), and where the channel agent
stands. -/
structure DmaChan where
  addr     : Word
  count    : BitVec 16
  en       : Bool
  ie       : Bool
  eob      : Bool
  eoc      : Bool
  err      : Bool
  remcount : BitVec 16
  /-- The channel is moving a slice: enabled for it, and its one completion status not reported yet (R204;
  model's own). A status bit left from before says nothing of it. -/
  running  : Bool
deriving DecidableEq, Repr

/-- The banks of one endpoint in the FIFO window (R11, R60, R65, R97). -/
structure Fifo where
  /-- The transmit bank the engine or the channel is filling. -/
  fill  : List Byte
  /-- The transmit banks handed to the hardware and not sent yet, oldest first (R42, R97). -/
  tx    : List (List Byte)
  /-- The bytes received and not read yet: one packet, or on a DMA endpoint the packets in order (R204;
  assumption 12). -/
  rx    : List Byte
  /-- The bank that holds a SETUP packet. -/
  setup : List Byte
deriving DecidableEq, Repr

/-- One endpoint: its Endpoint record (R22, whose constant `index` is the position in `State.eps`), its
status and control registers, its DMA channel (channel c serves endpoint c, R43) and its banks. -/
structure Endpoint where
  reserved  : Bool
  dir       : EpDir
  type      : EpType
  mps       : Len
  banks     : Nat
  bank      : Nat
  state     : EpState
  stalled   : Bool
  halted    : Bool
  txnullpkt : Bool
  rxpend    : Bool
  /-- Request Queue, the head first. -/
  queue     : List Ref
  irqEn     : Bool
  dmaBusy   : Bool
  sta       : EpSta
  ctl       : EpCtl
  chan      : DmaChan
  fifo      : Fifo
deriving DecidableEq, Repr

/-- The Device record (R35). R60 and R61 count it, with `scratch`, as system memory but give it no address: it is kept
apart from `State.mem`, and no buffer or write of the class driver reaches it (DESIGN CHOICE, assumption 31). -/
structure Device where
  state        : DevState
  prevstate    : DevState
  addr         : BitVec 7
  pendingAddr  : BitVec 7
  selfpowered  : Bool
  rwake        : Bool
  rxpending    : Bool
  ctrl         : SetupPacket
  /-- The bound class driver, `nullRef` for none. -/
  driver       : Ref
  scratch      : List Byte
  scratchCount : Len
  pullup       : Bool
  clkGated     : Bool
deriving DecidableEq, Repr

/-- `INT_PENDING` (R40, R100): its stored bits. The `EP[i]` bits are not stored (R304). -/
structure IntPending where
  suspend  : Bool
  sof      : Bool
  resume   : Bool
  busreset : Bool
  upresume : Bool
  dma      : BitVec 16
deriving DecidableEq, Repr

/-- `INT_ENABLE` (R40, R100): its stored bits. Bit `EP[i]` is `ep[i].irq_en` (R40, R342). -/
structure IntEnable where
  suspend  : Bool
  sof      : Bool
  resume   : Bool
  busreset : Bool
  upresume : Bool
  dma      : BitVec 16
deriving DecidableEq, Repr

/-- `DEV_ADDR` (R44, R104). -/
structure DevAddr where
  faddr   : BitVec 7
  faddrEn : Bool
deriving DecidableEq, Repr

/-- `DEV_CTL` (R46, R47, R105). -/
structure DevCtl where
  rwake   : Bool
  pullup  : Bool
  clkgate : Bool
deriving DecidableEq, Repr

/-! ### Callbacks, interrupt sources, the environment -/

/-- A callback to the class driver: a request completion (R171) or an `on_*` callback (R236, R280, R282,
R286). -/
inductive Callback where
  | done (ep : EpIx) (req : Ref) (result : Result)
  | onSetup (ctrl : SetupPacket) (out : Option (List Byte))
  | onDisconnect
  | onSuspend
  | onResume
deriving DecidableEq, Repr

/-- A top-level interrupt source (R40). -/
inductive Source where
  | suspend
  | sof
  | resume
  | busReset
  | upResume
  | dma (c : EpIx)
  | ep (i : EpIx)
deriving DecidableEq, Repr

/-- Where execution stands between two atomic steps, innermost first: a callback still to be delivered, a
callback the class driver is running, or the dispatcher inside a pass with the sampled sources it has not
reached yet (R21, R71, R300, R301). -/
inductive Ctx where
  | pending (c : Callback)
  | active (c : Callback)
  | dispatch (rest : List Source)
deriving DecidableEq, Repr

/-- What the environment does next (R7, R110): the class driver issues a command record, the bus or a DMA
agent applies a stimulus record (`now`: while the engine is still busy), the processor lets the dispatcher
in, the class driver's callback returns, the class driver sets the fields of a request or writes memory. -/
inductive Input where
  | cmd (bytes : List Byte)
  | stim (now : Bool) (bytes : List Byte)
  | irq
  | ret (r : Result)
  | setReq (h : Ref) (buf : Word) (len : Len) (nullpkt : Bool) (callback : Ref)
  | poke (a : Word) (bytes : List Byte)
deriving DecidableEq, Repr

/-- What the engine shows outside: the cache events of R66, the callbacks delivered, and the packets and
DMA data that went to the host. -/
inductive Event where
  | cacheFlush (a : Word) (n : Len)
  | cacheInvalidate (a : Word) (n : Len)
  | delivered (c : Callback)
  | sent (ep : EpIx) (bytes : List Byte)
deriving DecidableEq, Repr

/-! ### Stops -/

/-- Why the machine stops with a fault. Both are safe: the spec gives the step no successor (R13). -/
inductive Fault where
  /-- Raised by FREE_REQUEST on a request the engine owns (R31, R127, I1). Safe. -/
  | freeOfQueuedRequest
  /-- Raised when the class driver sets the fields of a request the engine owns (R366). Safe. -/
  | ownedRequestTouched
deriving DecidableEq, Repr

/-- Why an input is refused. All are safe: nothing is claimed about what follows. -/
inductive Refusal where
  /-- Raised by `exec` for an instruction that has no meaning yet. Safe. -/
  | notModelled (mnemonic : String)
  /-- Raised by BUS_RXPKT with more bytes than the endpoint's max-packet size (R97, I20). Safe. -/
  | oversizePacket
  /-- Raised by the step on a record that decodes to no instruction (R80, R97). Safe. -/
  | undecodable (e : DecodeError)
deriving DecidableEq, Repr

/-! ### The state -/

/-- System memory: (address, byte) pairs in one canonical form, see `Memory.wf`. -/
abbrev Memory := List Host.Cell

/-- The whole machine. -/
structure State where
  /-- The implementation parameters (R8); no step writes them. -/
  cfg        : Params
  eps        : Vector Endpoint 16
  /-- The request records that exist, by handle. -/
  reqs       : List (Ref × Request)
  /-- The next handle `allocate_request` returns (model's own). -/
  nextReq    : Ref
  /-- Owner of each descriptor of the pool, none for a free one (R33). -/
  descOwner  : List (Option EpIx)
  dev        : Device
  intPending : IntPending
  intEnable  : IntEnable
  devAddr    : DevAddr
  devCtl     : DevCtl
  /-- `FNUM`, 11 bits (R45). -/
  fnum       : BitVec 11
  mem        : Memory
  /-- The callback list of the current step (R12, R48). -/
  cbList     : List Callback
  /-- Callbacks being delivered and the dispatcher's position (R21, R71). -/
  stack      : List Ctx
  /-- The environment's next actions (model's own). -/
  input      : List Input
  /-- The next draws of `REQ_POOL` (model's own, R126); every later draw succeeds. -/
  reqPool    : List Bool
  /-- What the last operation returned (model's own, R12). -/
  ret        : Ret
  /-- What the engine has shown outside, oldest first (model's own). -/
  log        : List Event
  /-- How many free values have been drawn (model's own). -/
  draws      : Nat
deriving DecidableEq, Repr

/-! ### Reset -/

/-- `EP_STA` all 0 (R41). -/
def EpSta.reset : EpSta where
  txdone := false
  rxrdy := false
  stallsent := false
  setup := false
  bytecnt := 0

/-- `EP_CTL` all 0 (R42). -/
def EpCtl.reset : EpCtl where
  enable := false
  txpktrdy := false
  forcestall := false
  txdoneIe := false
  rxrdyIe := false
  stallsentIe := false
  setupIe := false
  mps := 0

/-- A DMA channel's registers all 0 (R43), and no slice under way. -/
def DmaChan.reset : DmaChan where
  addr := 0
  count := 0
  en := false
  ie := false
  eob := false
  eoc := false
  err := false
  remcount := 0
  running := false

/-- Empty banks. -/
def Fifo.reset : Fifo where
  fill := []
  tx := []
  rx := []
  setup := []

/-- An endpoint above 0 at engine initialisation (R22). `dir`, `type`, `mps` and `banks` are unspecified
there; the values are assumption 2. -/
def Endpoint.reset : Endpoint where
  reserved := false
  dir := .dirOut
  type := .control
  mps := 0
  banks := 1
  bank := 0
  state := .disabled
  stalled := false
  halted := false
  txnullpkt := false
  rxpend := false
  queue := []
  irqEn := false
  dmaBusy := false
  sta := EpSta.reset
  ctl := EpCtl.reset
  chan := DmaChan.reset
  fifo := Fifo.reset

/-- Endpoint 0 at engine initialisation: reserved, BIDIR and CONTROL (R22). -/
def Endpoint.reset0 : Endpoint := { Endpoint.reset with reserved := true, dir := .bidir, type := .control }

/-- The Device record at engine initialisation (R35); `ctrl` and `scratch` are unspecified there
(assumption 2). -/
def Device.reset (p : Params) : Device where
  state := .suspended
  prevstate := .powered
  addr := 0
  pendingAddr := 0
  selfpowered := false
  rwake := false
  rxpending := false
  ctrl := 0
  driver := nullRef
  scratch := List.replicate p.ep0ScratchSize 0
  scratchCount := 0
  pullup := false
  clkGated := false

/-- `INT_ENABLE` after engine initialisation and after a bus reset, apart from the endpoint bits (R342). -/
def IntEnable.reset (p : Params) : IntEnable where
  suspend := true
  sof := p.sofIrqEn
  resume := true
  busreset := true
  upresume := true
  dma := 0xFFFF

/-- Engine initialisation with parameters `p` (R340, R342): every field at its init value. -/
def State.init (p : Params) : State where
  cfg := p
  eps := (Vector.replicate 16 Endpoint.reset).set 0 Endpoint.reset0
  reqs := []
  nextReq := 1
  descOwner := List.replicate p.numDmaDesc none
  dev := Device.reset p
  intPending := ⟨false, false, false, false, false, 0⟩
  intEnable := IntEnable.reset p
  devAddr := ⟨0, false⟩
  devCtl := ⟨false, false, false⟩
  fnum := 0
  mem := []
  cbList := []
  stack := []
  input := []
  reqPool := []
  ret := .none
  log := []
  draws := 0

/-- The machine right after reset: engine initialisation (R340) with the spec's parameter set P
(assumption 3). -/
def State.reset : State := State.init Params.nominal

end Sys2Proof.Machine
end

