-- ==== Sys2Proof/Machine/Ops.lean ====
section
/-! DEFINITION. The named operations over the state: records and registers, system memory, FIFO banks, the
callback list, the descriptor pool, and taking the engine's one kind of exception, the controller
interrupt. -/

namespace Sys2Proof.Machine

/-! ### Endpoints -/

/-- `ep[i]`. -/
def State.ep (s : State) (i : EpIx) : Endpoint := s.eps.get i

/-- Write endpoint `i`. -/
def State.modEp (s : State) (i : EpIx) (f : Endpoint → Endpoint) : State :=
  { s with eps := s.eps.set i (f (s.ep i)) }

/-- `ep[i].state <- x`. -/
def State.setEpState (s : State) (i : EpIx) (x : EpState) : State :=
  s.modEp i fun e => { e with state := x }

/-- Write `EP_CTL[i]`. -/
def State.modCtl (s : State) (i : EpIx) (f : EpCtl → EpCtl) : State :=
  s.modEp i fun e => { e with ctl := f e.ctl }

/-- Write `EP_STA[i]`. -/
def State.modSta (s : State) (i : EpIx) (f : EpSta → EpSta) : State :=
  s.modEp i fun e => { e with sta := f e.sta }

/-- Write the registers of DMA channel `i`. -/
def State.modChan (s : State) (i : EpIx) (f : DmaChan → DmaChan) : State :=
  s.modEp i fun e => { e with chan := f e.chan }

/-- Do `f` to the endpoints of a list, in order. -/
def State.forEps (s : State) (is : List EpIx) (f : EpIx → State → State) : State :=
  is.foldl (fun s i => f i s) s

/-- The endpoint numbers that exist, in increasing order: 0 to `NUM_EP - 1` (R22). -/
def State.epList (s : State) : List EpIx := allIx.filter fun i => decide (i.val < s.cfg.numEp)

/-- `valid_ep(i)` (R119). -/
def State.validEp (s : State) (i : EpIx) : Bool := decide (i.val < s.cfg.numEp)

/-- `EP_HAS_DMA(i)`; false for endpoint 0 (R8). -/
def State.hasDma (s : State) (i : EpIx) : Bool := decide (i ≠ 0) && s.cfg.dmaMap.get i

/-- `EP_BANKS(i)` (R8). -/
def State.epBanks (s : State) (i : EpIx) : Nat := s.cfg.epBanks.get i

/-- `is_in(i)`: endpoint 0, or direction IN (R119). -/
def State.isIn (s : State) (i : EpIx) : Bool := decide (i = 0) || decide ((s.ep i).dir = .dirIn)

/-- `in_transfer(i)` (R119). -/
def State.inTransfer (s : State) (i : EpIx) : Bool :=
  match (s.ep i).state with
  | .sending | .receiving | .ep0DataOut | .ep0StatusIn | .ep0Address => true
  | .disabled | .stalled | .idle => false

/-- `ep[i].rxpend <- b`, with `dev.rxpending` kept equal to the OR of the endpoints' flags (R35, R187, R189;
assumption 9). -/
def State.setRxpend (s : State) (i : EpIx) (b : Bool) : State :=
  let s1 := s.modEp i fun e => { e with rxpend := b }
  { s1 with dev := { s1.dev with rxpending := s1.epList.any fun k => (s1.ep k).rxpend } }

/-! ### Requests -/

/-- Whether a request record with this handle exists. -/
def State.hasReq (s : State) (h : Ref) : Bool := (s.reqs.lookup h).isSome

/-- The request record of a handle. -/
def State.req (s : State) (h : Ref) : Request := (s.reqs.lookup h).getD Request.fresh

/-- The callback is the completion of request `h`. -/
def Callback.completes (h : Ref) : Callback → Bool
  | .done _ k _ => decide (k = h)
  | .onSetup _ _ | .onDisconnect | .onSuspend | .onResume => false

/-- The completion callback of request `h` has been collected and not been invoked yet (R12, R71). -/
def State.undelivered (s : State) (h : Ref) : Bool :=
  s.cbList.any (Callback.completes h) || s.stack.any fun c => match c with
    | .pending k => k.completes h
    | .active _ | .dispatch _ => false

/-- The engine owns request `h` (R31): from a successful SUBMIT, where its `owner` says so, until the instant its
completion callback is invoked, which comes after the step in which `complete` wrote `owner` (R171, R366;
assumption 17). -/
def State.engineOwns (s : State) (h : Ref) : Bool := decide ((s.req h).owner = .engine) || s.undelivered h

/-- Write the request record of a handle. -/
def State.modReq (s : State) (h : Ref) (f : Request → Request) : State :=
  { s with reqs := s.reqs.map fun p => if p.1 = h then (p.1, f p.2) else p }

/-! ### The Device record and the return value -/

/-- Write the Device record. -/
def State.modDev (s : State) (f : Device → Device) : State := { s with dev := f s.dev }

/-- Return a result to the class driver (R12). -/
def State.answer (s : State) (r : Result) : State := { s with ret := .result r }

/-- Append a callback to the list of the current step (R12). -/
def State.callback (s : State) (c : Callback) : State := { s with cbList := s.cbList ++ [c] }

/-- Append an `on_*` callback if a class driver is bound (R280, R282, R286). -/
def State.notify (s : State) (c : Callback) : State :=
  if s.dev.driver = nullRef then s else s.callback c

/-- Show something outside. -/
def State.emit (s : State) (e : Event) : State := { s with log := s.log ++ [e] }

/-! ### System memory (R60 to R64) -/

/-- What an address that the memory does not list reads as (assumption 4). -/
def memDefault : Byte := 0

/-- The byte at an address. -/
def readByte : Memory → Nat → Byte
  | [], _ => memDefault
  | (k, v) :: rest, a => if k = a then v else readByte rest a

/-- Write the byte at an address, keeping the canonical form. -/
def writeByte : Memory → Nat → Byte → Memory
  | [], a, b => if b = memDefault then [] else [(a, b)]
  | (k, v) :: rest, a, b =>
    if a < k then (if b = memDefault then (k, v) :: rest else (a, b) :: (k, v) :: rest)
    else if a = k then (if b = memDefault then rest else (a, b) :: rest)
    else (k, v) :: writeByte rest a b

/-- The canonical form: addresses strictly rising, all below 2^32, and no entry that equals what an unlisted
address reads as. -/
def Memory.wf : Memory → Bool
  | [] => true
  | [(k, v)] => decide (k < 2 ^ 32) && decide (v ≠ memDefault)
  | (k, v) :: (k', v') :: rest => decide (v ≠ memDefault) && decide (k < k') && Memory.wf ((k', v') :: rest)

/-- `MemRead(a, n)` (R11); addresses are 32 bits and wrap (assumption 7). -/
def readBytes (m : Memory) (a : Word) : Nat → List Byte
  | 0 => []
  | n + 1 => readByte m a.toNat :: readBytes m (a + 1) n

/-- `MemWrite(a, n, v)`: byte k of `v` lands at `a + k` (R11, R63). -/
def writeBytes (m : Memory) (a : Word) : List Byte → Memory
  | [] => m
  | b :: rest => writeBytes (writeByte m a.toNat b) (a + 1) rest

/-- `MemRead` on the machine's memory. -/
def State.memRead (s : State) (a : Word) (n : Len) : List Byte := readBytes s.mem a n.toNat

/-- `MemWrite` on the machine's memory. -/
def State.memWrite (s : State) (a : Word) (bs : List Byte) : State := { s with mem := writeBytes s.mem a bs }

/-- Whether address `x` lies in the `n` bytes from `a` upward, addresses wrapping at 2^32. -/
def inRange (a : Word) (n : Nat) (x : Word) : Bool := decide ((x - a).toNat < n)

/-! ### Free bytes -/

/-- `n` free bytes, the first of them draw number `k`. -/
def freeFrom (k : Nat) : Nat → List Byte
  | 0 => []
  | n + 1 => Config.freeByte k :: freeFrom (k + 1) n

/-- The next `n` free bytes (not drawn until `State.draw` counts them). -/
def State.freeBytes (s : State) (n : Nat) : List Byte := freeFrom s.draws n

/-- Count `n` free bytes as drawn. -/
def State.draw (s : State) (n : Nat) : State := { s with draws := s.draws + n }

/-! ### FIFO banks (R11, R65) -/

/-- `FifoWrite(i, bytes)`: the bytes are appended to the bank the engine is filling (R11). -/
def State.fifoWrite (s : State) (i : EpIx) (bs : List Byte) : State :=
  s.modEp i fun e => { e with fifo := { e.fifo with fill := e.fifo.fill ++ bs } }

/-- The bank being filled joins those handed to the hardware, and the next one is empty (R27, R42). -/
def Fifo.hand (f : Fifo) : Fifo := { f with fill := [], tx := f.tx ++ [f.fill] }

/-- `TXPKTRDY <- 1`: hand the filled bank to the hardware (R42). -/
def State.handTx (s : State) (i : EpIx) : State :=
  s.modEp i fun e => { e with ctl := { e.ctl with txpktrdy := true }, fifo := e.fifo.hand }

/-- `TXPKTRDY <- 0` by the engine: what was handed to the banks is withdrawn (R173). -/
def State.withdrawTx (s : State) (i : EpIx) : State :=
  s.modEp i fun e => { e with ctl := { e.ctl with txpktrdy := false }, fifo := { e.fifo with fill := [], tx := [] } }

/-- The hardware has sent the oldest bank handed over, and clears `TXPKTRDY` (R42, R97). With two handed over the
other stays in its bank (assumption 18). -/
def State.sendTx (s : State) (i : EpIx) : State :=
  (s.emit (.sent i ((s.ep i).fifo.tx.headD []))).modEp i fun e =>
    { e with ctl := { e.ctl with txpktrdy := false }, fifo := { e.fifo with tx := e.fifo.tx.tail } }

/-- The bytes a DMA channel put into the FIFO go to the host as they come (R204). -/
def State.streamTx (s : State) (i : EpIx) : State :=
  (s.emit (.sent i (s.ep i).fifo.fill)).modEp i fun e => { e with fifo := { e.fifo with fill := [] } }

/-- `ep[i].bank <- (ep[i].bank + 1) mod ep[i].banks` (R27). -/
def State.nextBank (s : State) (i : EpIx) : State :=
  s.modEp i fun e => { e with bank := (e.bank + 1) % e.banks }

/-- The first `n` bytes of a bank; bytes past its end are free (assumption 1). -/
def State.bankBytes (s : State) (bank : List Byte) (n : Nat) : List Byte :=
  bank.take n ++ s.freeBytes (n - bank.length)

/-- `FifoRead(i, n)` on the received bank: the bytes, and the state with them consumed (R11, R65). -/
def State.fifoReadRx (s : State) (i : EpIx) (n : Nat) : List Byte × State :=
  let bank := (s.ep i).fifo.rx
  (s.bankBytes bank n,
    (s.modEp i fun e => { e with fifo := { e.fifo with rx := bank.drop n } }).draw (n - bank.length))

/-- `FifoRead(i, n)` on the SETUP bank. -/
def State.fifoReadSetup (s : State) (i : EpIx) (n : Nat) : List Byte × State :=
  let bank := (s.ep i).fifo.setup
  (s.bankBytes bank n,
    (s.modEp i fun e => { e with fifo := { e.fifo with setup := bank.drop n } }).draw (n - bank.length))

/-- Discard the bytes of the SETUP bank (R230, R308). -/
def State.discardSetup (s : State) (i : EpIx) (n : Nat) : State :=
  s.modEp i fun e => { e with fifo := { e.fifo with setup := e.fifo.setup.drop n } }

/-- `hw_release_rx(i)`: discard the received bank and clear `RXRDY` (R65, R190). -/
def State.releaseRx (s : State) (i : EpIx) : State :=
  s.modEp i fun e => { e with sta := { e.sta with rxrdy := false }, fifo := { e.fifo with rx := [] } }

/-! ### The descriptor pool (R33, R209) -/

/-- The number of the first free descriptor of an owner list whose first entry is number `d`. -/
def firstFree (d : Nat) : List (Option EpIx) → Option Nat
  | [] => none
  | none :: _ => some d
  | some _ :: rest => firstFree (d + 1) rest

/-- `DescAlloc()` for endpoint `i`: the lowest-numbered free descriptor, now owned (R209). -/
def State.descAlloc (s : State) (i : EpIx) : Option Nat × State :=
  match firstFree 0 s.descOwner with
  | none => (none, s)
  | some d => (some d, { s with descOwner := s.descOwner.set d (some i) })

/-- `DescFree(d)` (R209). -/
def State.descFree (s : State) (d : Nat) : State := { s with descOwner := s.descOwner.set d none }

/-- Where descriptor `d` lies: `DESC_BASE + 16*d` (R64). -/
def descAddr (d : Nat) : Word := Config.descBase + BitVec.ofNat 32 (16 * d)

/-! ### Taking the interrupt (R300, R304, R318, R319) -/

/-- The bits of `EP_STA[i]` whose `_IE` bit is set (R304, R308). -/
def Endpoint.enabledSta (e : Endpoint) : EpSta :=
  { txdone := e.sta.txdone && e.ctl.txdoneIe, rxrdy := e.sta.rxrdy && e.ctl.rxrdyIe,
    stallsent := e.sta.stallsent && e.ctl.stallsentIe, setup := e.sta.setup && e.ctl.setupIe,
    bytecnt := e.sta.bytecnt }

/-- `INT_PENDING.EP[i]`: derived, 1 exactly when an enabled status bit is set (R304). -/
def Endpoint.pending (e : Endpoint) : Bool :=
  e.enabledSta.txdone || e.enabledSta.rxrdy || e.enabledSta.stallsent || e.enabledSta.setup

/-- `still_pending(b)`: bit `b` of `INT_PENDING & INT_ENABLE` at this moment (R300). A DMA bit is further
gated by `DMA_CTL[c].IE` (R342). -/
def State.stillPending (s : State) : Source → Bool
  | .suspend => s.intPending.suspend && s.intEnable.suspend
  | .sof => s.intPending.sof && s.intEnable.sof
  | .resume => s.intPending.resume && s.intEnable.resume
  | .busReset => s.intPending.busreset && s.intEnable.busreset
  | .upResume => s.intPending.upresume && s.intEnable.upresume
  | .dma c => s.intPending.dma.getLsbD c.val && s.intEnable.dma.getLsbD c.val && (s.ep c).chan.ie
  | .ep i => s.validEp i && (s.ep i).pending && (s.ep i).irqEn

/-- Every source in the order of one pass (R300, R302). -/
def allSources : List Source :=
  [.suspend, .sof, .resume, .busReset, .upResume] ++ allIx.map .dma ++ allIx.map .ep

/-- The sample `P <- INT_PENDING & INT_ENABLE` of a pass, in the pass's order (R300). -/
def State.sample (s : State) : List Source := allSources.filter s.stillPending

/-- Whether the dispatcher is already running: it is not re-entered (R301, R319). -/
def State.inDispatch (s : State) : Bool :=
  s.stack.any fun c => match c with
    | .dispatch _ => true
    | .pending _ | .active _ => false

/-- Take the controller interrupt: with the line `INT_PENDING & INT_ENABLE` not zero and the dispatcher not
running, the dispatcher is entered and samples. No context is saved (R318). -/
def State.enterDispatch (s : State) : State :=
  if s.inDispatch || s.sample.isEmpty then s else { s with stack := .dispatch s.sample :: s.stack }

/-- The end of a pass: re-sample; with nothing pending the dispatcher returns, else a new pass begins
(R300, R319). `below` is the context under the dispatcher. -/
def State.resample (s : State) (below : List Ctx) : State :=
  if s.sample.isEmpty then { s with stack := below } else { s with stack := .dispatch s.sample :: below }

/-- `release`: the callback list of the step becomes pending, to be delivered before anything that was
waiting (R12, R71). -/
def State.release (s : State) : State :=
  { s with cbList := [], stack := s.cbList.map .pending ++ s.stack }

end Sys2Proof.Machine
end

