-- ==== Sys2Proof/Machine/Operands.lean ====
section
/-! DEFINITION. Operand forms: the endpoint descriptor (R90), the geometry and type parameters (R8), the
endpoint operand of a standard request (R87), the SETUP fields as the sequencer names them (R81 to R86) and
the GET_STATUS response (R88). -/

namespace Sys2Proof.Machine

/-! ### Endpoint descriptor (R90) -/

/-- `desc_dir`: IN if `epaddr[7] = 1`, else OUT. -/
def descDir (d : EpDesc) : EpDir := if d.epaddr.getLsbD 7 then .dirIn else .dirOut

/-- `epnum = epaddr[3:0]`. -/
def descEpnum (d : EpDesc) : EpIx := (d.epaddr.extractLsb' 0 4).toFin

/-- `type = attributes[1:0]`; the other bits are ignored. -/
def descType (d : EpDesc) : EpType := epTypeOfBits (d.attrs.extractLsb' 0 2)

/-- The direction a flag names: 1 is IN (R95). -/
def dirOfFlag (b : Bool) : EpDir := if b then .dirIn else .dirOut

/-! ### Parameters as functions (R8) -/

/-- `GEOMETRY_OK(i, type, mps, banks)`. -/
def State.geometryOk (s : State) (i : EpIx) (t : EpType) (m : Len) (banks : Nat) : Bool :=
  !s.cfg.geometryRefused.contains (i, t, m, banks)

/-- `EP_SUPPORTS(i, type)`. -/
def State.epSupports (s : State) (i : EpIx) (t : EpType) : Bool := !s.cfg.unsupported.contains (i, t)

/-- `PHYS(a) = a` (R68). -/
def phys (a : Word) : Word := a

/-! ### SETUP operands (R82 to R88) -/

/-- Recipient device (R84). -/
def recipDevice : BitVec 5 := 0

/-- Recipient interface (R84). -/
def recipInterface : BitVec 5 := 1

/-- Recipient endpoint (R84). -/
def recipEndpoint : BitVec 5 := 2

/-- Feature selector ENDPOINT_HALT (R86). -/
def featEndpointHalt : BitVec 16 := 0

/-- Feature selector DEVICE_REMOTE_WAKEUP (R86). -/
def featRemoteWakeup : BitVec 16 := 1

/-- Feature selector TEST_MODE (R86). -/
def featTestMode : BitVec 16 := 2

/-- The code of SET_CONFIGURATION (R85). -/
def codeSetConfiguration : Byte := 0x09

/-- The endpoint operand `t = index[7:0]`, taken whole: an endpoint only if `t < NUM_EP` (R87). -/
def State.targetEp (s : State) (index : BitVec 16) : Option EpIx :=
  let t := (index.extractLsb' 0 8).toNat
  if h : t < 16 then (if t < s.cfg.numEp then some ⟨t, h⟩ else none) else none

/-- The two bytes of a GET_STATUS response, little-endian: bit 0 and bit 1 as given, all else 0 (R62, R88). -/
def statusBytes (bit0 bit1 : Bool) : List Byte :=
  [(0#6 ++ BitVec.ofBool bit1 ++ BitVec.ofBool bit0 : Byte), 0]

/-- The packet that eight bytes of the SETUP bank spell (R62, R81). -/
def packetOfBytes (bs : List Byte) : SetupPacket := BitVec.ofNat 64 (natOfBytes bs)

/-- The byte address at offset `off` of a buffer (R63). -/
def bufAt (buf : Word) (off : Len) : Word := buf + off.setWidth 32

end Sys2Proof.Machine
end

