-- ==== Sys2Proof/Machine/Flags.lean ====
section
/-! DEFINITION. Status and control bits: the order of device states (R36), masking and unmasking an
endpoint (R119), acknowledging status (R65, R101), result codes (R316), and the words the controller
registers read as (R100 to R105). -/

namespace Sys2Proof.Machine

/-! ### Device states and results -/

/-- The place of a device state in `Suspended < Attached < Powered < Default < Address < Configured` (R36). -/
def DevState.rank : DevState → Nat
  | .suspended => 0
  | .attached => 1
  | .powered => 2
  | .default => 3
  | .address => 4
  | .configured => 5

/-- "Powered or higher" (R36). -/
def DevState.poweredOrHigher (d : DevState) : Bool := decide (DevState.powered.rank ≤ d.rank)

/-- The code of a result (R316). -/
def Result.code : Result → Nat
  | .ok => 0
  | .busy => 1
  | .shutdown => 2
  | .ioError => 3
  | .protocol => 4
  | .configError => 5
  | .invalidArgs => 6

/-! ### Interrupt enables of an endpoint (R119) -/

/-- `MaskEpIrq(i)`. -/
def State.maskEpIrq (s : State) (i : EpIx) : State :=
  s.modEp i fun e =>
    { e with
      irqEn := false
      ctl := { e.ctl with txdoneIe := false, rxrdyIe := false, stallsentIe := false, setupIe := false }
      chan := { e.chan with ie := false } }

/-- `UnmaskEpIrq(i)`: a DMA endpoint reports packets only through its channel (R119, R210). -/
def State.unmaskEpIrq (s : State) (i : EpIx) : State :=
  if s.hasDma i then
    s.modEp i fun e =>
      { e with
        irqEn := true
        ctl := { e.ctl with stallsentIe := true, setupIe := decide (i = 0), txdoneIe := false, rxrdyIe := false }
        chan := { e.chan with ie := true } }
  else
    s.modEp i fun e =>
      { e with
        irqEn := true
        ctl := { e.ctl with
          stallsentIe := true
          setupIe := decide (i = 0)
          txdoneIe := decide (i = 0) || decide (e.dir = .dirIn)
          rxrdyIe := decide (i = 0) || !(decide (i = 0) || decide (e.dir = .dirIn)) } }

/-! ### Acknowledging status (R65, R101, R304) -/

/-- `hw_ack(i, TXDONE)`. -/
def State.ackTxdone (s : State) (i : EpIx) : State := s.modSta i fun t => { t with txdone := false }

/-- `hw_ack(i, STALLSENT)`. -/
def State.ackStallsent (s : State) (i : EpIx) : State := s.modSta i fun t => { t with stallsent := false }

/-- `hw_ack(i, SETUP)`. -/
def State.ackSetup (s : State) (i : EpIx) : State := s.modSta i fun t => { t with setup := false }

/-- Set bit `INT_PENDING.DMA[c]` to `b`. -/
def State.setDmaPending (s : State) (c : EpIx) (b : Bool) : State :=
  { s with intPending := { s.intPending with
      dma := if b then s.intPending.dma ||| BitVec.twoPow 16 c.val
             else s.intPending.dma &&& ~~~(BitVec.twoPow 16 c.val) } }

/-! ### Register words (R100 to R105) -/

/-- The word `EP_STA[i]` reads as (R101). -/
def EpSta.word (t : EpSta) : BitVec 32 :=
  t.bytecnt ++ 0#12 ++ BitVec.ofBool t.setup ++ BitVec.ofBool t.stallsent ++ BitVec.ofBool t.rxrdy ++
    BitVec.ofBool t.txdone

/-- The word `EP_CTL[i]` reads as (R102). -/
def EpCtl.word (c : EpCtl) : BitVec 32 :=
  c.mps ++ 0#9 ++ BitVec.ofBool c.setupIe ++ BitVec.ofBool c.stallsentIe ++ BitVec.ofBool c.rxrdyIe ++
    BitVec.ofBool c.txdoneIe ++ BitVec.ofBool c.forcestall ++ BitVec.ofBool c.txpktrdy ++ BitVec.ofBool c.enable

/-- The word `DMA_STA[c]` reads as (R103). -/
def DmaChan.staWord (c : DmaChan) : BitVec 32 :=
  c.remcount ++ 0#13 ++ BitVec.ofBool c.err ++ BitVec.ofBool c.eoc ++ BitVec.ofBool c.eob

/-- The word `DMA_CTL[c]` reads as (R103). -/
def DmaChan.ctlWord (c : DmaChan) : BitVec 2 := BitVec.ofBool c.ie ++ BitVec.ofBool c.en

/-- The word `DEV_ADDR` reads as (R104). -/
def DevAddr.word (d : DevAddr) : BitVec 8 := BitVec.ofBool d.faddrEn ++ d.faddr

/-- The word `DEV_CTL` reads as (R105). -/
def DevCtl.word (d : DevCtl) : BitVec 8 :=
  0#5 ++ BitVec.ofBool d.clkgate ++ BitVec.ofBool d.pullup ++ BitVec.ofBool d.rwake

/-- The word `FNUM` reads as: bits 15:11 read 0 (R105, R152). -/
def State.fnumWord (s : State) : BitVec 16 := s.fnum.setWidth 16

/-- A 16-bit mask with bit `i` given by `f i`. -/
def maskOf (f : EpIx → Bool) : BitVec 16 :=
  allIx.foldl (fun m i => if f i then m ||| BitVec.twoPow 16 i.val else m) 0

/-- The word `INT_PENDING` reads as, its endpoint bits derived (R100, R304). -/
def State.intPendingWord (s : State) : BitVec 48 :=
  s.intPending.dma ++ maskOf (fun i => s.validEp i && (s.ep i).pending) ++ 0#11 ++
    BitVec.ofBool s.intPending.upresume ++ BitVec.ofBool s.intPending.busreset ++
    BitVec.ofBool s.intPending.resume ++ BitVec.ofBool s.intPending.sof ++ BitVec.ofBool s.intPending.suspend

/-- The word `INT_ENABLE` reads as, bit `EP[i]` being `ep[i].irq_en` (R40, R100, R342). -/
def State.intEnableWord (s : State) : BitVec 48 :=
  s.intEnable.dma ++ maskOf (fun i => (s.ep i).irqEn) ++ 0#11 ++
    BitVec.ofBool s.intEnable.upresume ++ BitVec.ofBool s.intEnable.busreset ++
    BitVec.ofBool s.intEnable.resume ++ BitVec.ofBool s.intEnable.sof ++ BitVec.ofBool s.intEnable.suspend

end Sys2Proof.Machine
end

