-- ==== Sys2Proof/Machine/Queue.lean ====
section
/-! DEFINITION. The request queue (41_queue_packet_io.md, section 1): enqueue, completion, cancellation. -/

namespace Sys2Proof.Machine

/-- `peek(i)`: the head request's handle (R170). -/
def State.peek (s : State) (i : EpIx) : Option Ref := (s.ep i).queue.head?

/-- `enqueue(i, r)`: append at the tail (R170). -/
def State.enqueue (s : State) (i : EpIx) (h : Ref) : State :=
  s.modEp i fun e => { e with queue := e.queue ++ [h] }

/-- `complete(i, result)`: the head leaves the queue with its result and goes back to the class driver, and
its callback joins the step's list (R171). An empty queue has no head: nothing happens. -/
def State.complete (s : State) (i : EpIx) (r : Result) : State :=
  match (s.ep i).queue with
  | [] => s
  | h :: rest =>
    ((s.modEp i fun e => { e with queue := rest }).modReq h
        fun q => { q with result := some r, inflight := 0, owner := .driver }).callback (.done i h r)

/-- Complete as many requests as a list is long, head first. -/
def completeEach (i : EpIx) (r : Result) : List Ref → State → State
  | [], s => s
  | _ :: rest, s => completeEach i r rest (s.complete i r)

/-- Complete the whole queue, head first. -/
def State.drain (s : State) (i : EpIx) (r : Result) : State := completeEach i r (s.ep i).queue s

/-- `cancel_all(i, reason)` (R172). -/
def State.cancelAll (s : State) (i : EpIx) (r : Result) : State :=
  (s.drain i r).modEp i fun e => { e with txnullpkt := false }

/-- `PostCancelState(i)` (R173). -/
def State.postCancel (s : State) (i : EpIx) : State :=
  (s.modEp i fun e =>
    { e with state := if e.state = .sending ∨ e.state = .receiving then .idle else e.state }).withdrawTx i

end Sys2Proof.Machine
end

