-- ==== Sys2Proof/Machine/DmaChannel.lean ====
section
/-! DEFINITION. Programming, stopping and starting a DMA channel (42_dma.md, sections 1 and 2), and what
the channel agent does to memory (R204). -/

namespace Sys2Proof.Machine

/-- A slice under way on an OUT endpoint was stopped, or ended with an error, after an unknown number of bytes: its
memory takes any value (I14, R207), and of the received bytes an unknown number, at most the slice's, is gone from the
FIFO. The spec does not say how many are (DESIGN CHOICE, assumption 19: a free value). -/
def State.scrambleSlice (s : State) (i : EpIx) : State :=
  let c := (s.ep i).chan
  if c.running && !s.isIn i then
    let s1 := (s.memWrite c.addr (s.freeBytes c.count.toNat)).draw c.count.toNat
    (s1.modEp i fun e =>
      { e with fifo := { e.fifo with rx := e.fifo.rx.drop (min (Config.freeCount s1.draws) c.count.toNat) } }).draw 1
  else s

/-- The channel has moved `k` bytes of its slice between memory and the endpoint's FIFO (R204). An IN slice's bytes
went from memory through the FIFO to the host. An OUT slice's bytes came from the received bytes and, past their end,
from the host (I12: any value); `RXRDY` and `BYTECNT` stay as they are (DESIGN CHOICE, assumption 19: no rule says
that the channel clears them). -/
def State.moveSlice (s : State) (i : EpIx) (k : Nat) : State :=
  let c := (s.ep i).chan
  if c.running then
    if s.isIn i then (s.fifoWrite i (readBytes s.mem c.addr k)).streamTx i
    else
      let r := s.fifoReadRx i k
      r.2.memWrite c.addr r.1
  else s

/-- `DmaStop(i)` (R207). Bytes the stopped slice moved are not counted, and the memory of the slice may hold
any value. -/
def State.dmaStop (s : State) (i : EpIx) : State :=
  let s1 := s.scrambleSlice i
  let s2 := (s1.modEp i fun e =>
    { e with
      chan := { e.chan with en := false, ie := false, eob := false, eoc := false, err := false, running := false }
      dmaBusy := false }).setDmaPending i false
  match s2.peek i with
  | none => s2
  | some h => s2.modReq h fun q => { q with inflight := 0 }

/-- `if ep[i].dma_busy: DmaStop(i)` (R124, R136, R140, R280, R313). -/
def State.dmaStopIfBusy (s : State) (i : EpIx) : State := if (s.ep i).dmaBusy then s.dmaStop i else s

/-- `DmaSlice(i)` (R203): program the next slice of the head request. -/
def State.dmaSlice (s : State) (i : EpIx) : State :=
  match s.peek i with
  | none => s
  | some h =>
    let r := s.req h
    let n := lenMin (r.len - r.xfrd) s.cfg.dmaFifoCap
    let a := bufAt r.buf r.xfrd
    let s1 := if s.isIn i then s.emit (.cacheFlush a n) else s
    (s1.modReq h fun q => { q with inflight := n, started := true }).modEp i fun e =>
      { e with
        chan := { e.chan with addr := phys a, count := n, en := true, ie := true, running := true }
        dmaBusy := true }

/-- The zero-length packet of a zero-length write on a DMA endpoint (R200, R210). -/
def State.dmaZlp (s : State) (i : EpIx) (h : Ref) : State :=
  (((((s.fifoWrite i []).modReq h fun q => { q with inflight := 0, started := true }).handTx i).modCtl i
    fun c => { c with txdoneIe := true }).nextBank i).setEpState i .sending

/-- The body of `DmaStart` in state `Idle` (R200): zero-length reads complete one after another, each
calling `StartTransfer` again; the first argument bounds the calls by the queue's length. -/
def dmaStartLoop (i : EpIx) : Nat → State → State
  | 0, s => s
  | k + 1, s =>
    match s.peek i with
    | none => s
    | some h =>
      if (s.req h).len = 0 then
        if s.isIn i then s.dmaZlp i h
        else dmaStartLoop i k ((s.complete i .ok).setEpState i .idle)
      else (s.setEpState i (if s.isIn i then .sending else .receiving)).dmaSlice i

/-- `DmaStart(i)` with its result (R200, R201). -/
def State.dmaStart (s : State) (i : EpIx) : Result × State :=
  if (s.ep i).state ≠ .idle then (.busy, s)
  else (.ok, dmaStartLoop i ((s.ep i).queue.length + 1) s)

end Sys2Proof.Machine
end

