-- ==== Sys2Proof/Machine/Transfer.lean ====
section
/-! DEFINITION. The packet byte-stream copier (41_queue_packet_io.md, sections 2 to 4): starting a transfer,
the write path and the read path. Loops of the spec take one queued request a turn; their first argument
bounds the turns by the queue's length. -/

namespace Sys2Proof.Machine

/-- Carve and issue the next packet of the head request `h` (R180, R181, R182). -/
def State.sendPacket (s : State) (i : EpIx) (h : Ref) : State :=
  let r := s.req h
  let e := s.ep i
  let remaining := r.len - r.xfrd
  let n := lenMin e.mps remaining
  (((((s.modEp i fun e => { e with txnullpkt := decide (remaining - n = 0) && r.nullpkt && decide (n = e.mps) }).fifoWrite
    i (s.memRead (bufAt r.buf r.xfrd) n)).modReq h fun q => { q with inflight := n, started := true }).handTx i).nextBank
    i).setEpState i .sending

/-- Count the packet just sent (R181). -/
def State.countSent (s : State) (h : Ref) : State :=
  s.modReq h fun q => { q with xfrd := q.xfrd + q.inflight, inflight := 0 }

/-- Owe a zero-length packet to a zero-length write not started yet (R181, R183). -/
def State.oweZlp (s : State) (i : EpIx) (h : Ref) : State :=
  if !(s.req h).started && decide ((s.req h).len = 0) then s.modEp i fun e => { e with txnullpkt := true } else s

/-- The loop of `WriteProcess` (R181). -/
def writeLoop (i : EpIx) : Nat → State → State
  | 0, s => s
  | k + 1, s =>
    match s.peek i with
    | none => s.setEpState i .idle
    | some h =>
      let s1 := (s.countSent h).oweZlp i h
      if (s1.req h).len - (s1.req h).xfrd ≠ 0 ∨ (s1.ep i).txnullpkt then s1.sendPacket i h
      else writeLoop i k (s1.complete i .ok)

/-- `WriteProcess(i)` (R181). -/
def State.writeProcess (s : State) (i : EpIx) : State := writeLoop i ((s.ep i).queue.length + 1) s

/-- Copy a received packet into the head request's buffer and release the bank: the part of `ReadPacket`
before its test (R190, R193). -/
def State.readBank (s : State) (i : EpIx) (h : Ref) : State :=
  let r := s.req h
  let n := lenMin (s.ep i).sta.bytecnt (r.len - r.xfrd)
  let d := s.fifoReadRx i n.toNat
  (((d.2.memWrite (bufAt r.buf r.xfrd) d.1).modReq h fun q => { q with xfrd := q.xfrd + n }).releaseRx i).nextBank i

/-- Whether `ReadPacket` ends the head request: its buffer is full or the packet was short (R190, R191); `c`
is the byte count of the packet. -/
def State.readEnds (s : State) (i : EpIx) (h : Ref) (c : Len) : Bool :=
  decide ((s.req h).xfrd = (s.req h).len) || decide (c < (s.ep i).mps)

/-- The loop of `ReadStart` (R189, R192), which takes in the `ReadPacket` of a held packet (R190). -/
def readLoop (i : EpIx) : Nat → State → State
  | 0, s => s
  | k + 1, s =>
    match s.peek i with
    | none => s.setEpState i .idle
    | some h =>
      if (s.req h).len = 0 then readLoop i k (s.complete i .ok)
      else
        let s1 := s.setEpState i .receiving
        if (s1.ep i).rxpend then
          let s2 := (s1.setRxpend i false).modCtl i fun c => { c with rxrdyIe := true }
          let s3 := s2.readBank i h
          if s3.readEnds i h (s2.ep i).sta.bytecnt then readLoop i k ((s3.complete i .ok).setEpState i .idle)
          else s3
        else s1

/-- `ReadStart(i)` (R189). -/
def State.readStart (s : State) (i : EpIx) : State := readLoop i ((s.ep i).queue.length + 1) s

/-- `ReadPacket(i)` (R190). -/
def State.readPacket (s : State) (i : EpIx) : State :=
  match s.peek i with
  | none => s
  | some h =>
    let s1 := s.readBank i h
    if s1.readEnds i h (s.ep i).sta.bytecnt then ((s1.complete i .ok).setEpState i .idle).readStart i
    else s1

/-- `StartTransfer(i)`, called in state `Idle` (R176). -/
def State.startTransfer (s : State) (i : EpIx) : State :=
  if (s.ep i).queue.isEmpty then s
  else if s.hasDma i then (s.dmaStart i).2
  else if s.isIn i then s.writeProcess i
  else s.readStart i

end Sys2Proof.Machine
end

