-- ==== Sys2Proof/Machine/EndpointOps.lean ====
section
/-! DEFINITION. The class driver's endpoint and request operations (40_endpoint_ops.md, sections 1 to 7 and
rule R164). The procedures that other rules call inside their own step come first; an operation adds the
checks, in the order its rule lists them (R317), and the result. -/

namespace Sys2Proof.Machine

/-! ### Procedures -/

/-- `disable_endpoint` after its check (R124). -/
def State.disableEp (s : State) (i : EpIx) : State :=
  let s1 := ((s.maskEpIrq i).dmaStopIfBusy i).cancelAll i .shutdown
  let s2 := s1.modEp i fun e =>
    { e with
      state := .disabled, stalled := false, halted := false, txnullpkt := false
      ctl := { e.ctl with enable := false, forcestall := false } }
  let s3 := (s2.setRxpend i false).withdrawTx i
  if i = 0 then s3.modDev fun d => { d with scratchCount := 0 } else s3

/-- The head request's bytes in flight are forgotten (R140). -/
def State.dropInflight (s : State) (i : EpIx) : State :=
  match s.peek i with
  | none => s
  | some h => s.modReq h fun q => { q with inflight := 0 }

/-- `stall(i, resume = false)` after its check (R140). -/
def State.stallEp (s : State) (i : EpIx) : State :=
  match (s.ep i).state with
  | .disabled | .stalled => s
  | st =>
    let s1 := if st = .sending ∨ st = .receiving then
        ((s.dmaStopIfBusy i).dropInflight i).complete i .ioError
      else s
    let s2 := if i = 0 then s1.modDev fun d => { d with scratchCount := 0, pendingAddr := 0 } else s1
    ((s2.modEp i fun e => { e with txnullpkt := false }).withdrawTx i).modEp i fun e =>
      { e with state := .stalled, stalled := true, ctl := { e.ctl with forcestall := true } }

/-- `stall(i, resume = true)` after its check (R141). -/
def State.resumeEp (s : State) (i : EpIx) : State :=
  if (s.ep i).state = .stalled then
    (s.modEp i fun e =>
      { e with
        state := .idle, stalled := false, halted := false
        ctl := { e.ctl with forcestall := false } }).startTransfer i
  else s

/-- The fields `configure_endpoint` writes, with the stall cleared and the endpoint `Idle` (R120). -/
def State.programEp (s : State) (i : EpIx) (d : EpDesc) : State :=
  let s1 := s.modEp i fun e =>
    { e with
      dir := if i = 0 then .bidir else descDir d
      type := descType d
      mps := d.mps
      banks := s.epBanks i
      bank := 0
      stalled := false
      halted := false
      txnullpkt := false
      ctl := { e.ctl with mps := d.mps, forcestall := false, enable := true } }
  ((s1.setRxpend i false).unmaskEpIrq i).setEpState i .idle

/-- The lowest-numbered free endpoint above 0 that supports a type (R146). -/
def State.findFreeEp (s : State) (t : EpType) : Option EpIx :=
  s.epList.find? fun k => decide (k ≠ 0) && !(s.ep k).reserved && s.epSupports k t

/-- Reserve an endpoint with its provisional direction and type, and return it (R146). -/
def State.reserveEp (s : State) (k : EpIx) (dirIn : Bool) (t : EpType) : State :=
  { s.modEp k fun e => { e with reserved := true, dir := dirOfFlag dirIn, type := t } with ret := .endpoint (some k) }

/-! ### Operations -/

/-- CONFIGURE_ENDPOINT (R120). -/
def execConfigureEndpoint (i : EpIx) (d : EpDesc) (s : State) : Host.Outcome State Fault Refusal :=
  if !s.validEp i || !(s.ep i).reserved then .next (s.answer .invalidArgs)
  else if s.inTransfer i then .next (s.answer .busy)
  else if decide (d.mps = 0) || (decide (i = 0) != decide (descType d = .control)) then
    .next (s.answer .invalidArgs)
  else if !s.geometryOk i (descType d) d.mps (s.epBanks i) then .next (s.answer .configError)
  else .next (((s.programEp i d).startTransfer i).answer .ok)

/-- DISABLE_ENDPOINT (R124). -/
def execDisableEndpoint (i : EpIx) (s : State) : Host.Outcome State Fault Refusal :=
  if !s.validEp i then .next (s.answer .invalidArgs) else .next ((s.disableEp i).answer .ok)

/-- ALLOCATE_REQUEST (R126): the draw `REQ_POOL` decides whether a new record is made. Handles are given out in
increasing order and never twice; when none is left the draw fails (assumption 8). -/
def execAllocateRequest (s : State) : Host.Outcome State Fault Refusal :=
  let s1 := { s with reqPool := s.reqPool.tail }
  if s.reqPool.headD true && decide (s.nextReq ≠ nullRef) then
    .next { s1 with reqs := (s.nextReq, Request.fresh) :: s.reqs, nextReq := s.nextReq + 1, ret := .request s.nextReq }
  else .next { s1 with ret := .request nullRef }

/-- FREE_REQUEST (R127). A handle of no record is an argument out of range (assumption 8). -/
def execFreeRequest (_i : EpIx) (h : Ref) (s : State) : Host.Outcome State Fault Refusal :=
  if h = nullRef ∨ s.hasReq h = false then .next (s.answer .invalidArgs)
  else if s.engineOwns h then .fault .freeOfQueuedRequest
  else .next ({ s with reqs := s.reqs.filter fun p => decide (p.1 ≠ h) }.answer .ok)

/-- SUBMIT (R130). -/
def execSubmit (i : EpIx) (h : Ref) (s : State) : Host.Outcome State Fault Refusal :=
  let r := s.req h
  if !s.validEp i || !(s.ep i).reserved then .next (s.answer .invalidArgs)
  else if h = nullRef ∨ s.hasReq h = false ∨ r.callback = nullRef ∨ (r.buf = 0 ∧ r.len ≠ 0) then
    .next (s.answer .invalidArgs)
  else if s.engineOwns h then .next (s.answer .invalidArgs)
  else if s.dev.driver = nullRef ∨ (s.ep i).state = .disabled then .next (s.answer .shutdown)
  else
    let s1 := (s.modReq h fun q =>
      { q with xfrd := 0, inflight := 0, started := false, result := none, owner := .engine }).enqueue i h
    .next ((if (s.ep i).state = .idle then s1.startTransfer i else s1).answer .ok)

/-- CANCEL (R136): the whole queue; the request operand selects nothing. -/
def execCancel (i : EpIx) (_h : Ref) (s : State) : Host.Outcome State Fault Refusal :=
  if !s.validEp i then .next (s.answer .invalidArgs)
  else
    let s1 := (((s.maskEpIrq i).dmaStopIfBusy i).cancelAll i .shutdown).postCancel i
    .next ((if (s.ep i).state ≠ .disabled then s1.unmaskEpIrq i else s1).answer .ok)

/-- STALL (R140). -/
def execStall (i : EpIx) (s : State) : Host.Outcome State Fault Refusal :=
  if !s.validEp i then .next (s.answer .invalidArgs) else .next ((s.stallEp i).answer .ok)

/-- RESUME_STALL (R141). -/
def execResumeStall (i : EpIx) (s : State) : Host.Outcome State Fault Refusal :=
  if !s.validEp i then .next (s.answer .invalidArgs) else .next ((s.resumeEp i).answer .ok)

/-- ALLOCATE_ENDPOINT (R146): a logical number other than 0 names the endpoint, 0 asks for any. -/
def execAllocateEndpoint (n : EpIx) (dirIn : Bool) (t : EpType) (s : State) : Host.Outcome State Fault Refusal :=
  if n ≠ 0 then
    if s.validEp n && !(s.ep n).reserved && s.epSupports n t then .next (s.reserveEp n dirIn t)
    else .next { s with ret := .endpoint none }
  else
    match s.findFreeEp t with
    | some k => .next (s.reserveEp k dirIn t)
    | none => .next { s with ret := .endpoint none }

/-- FREE_ENDPOINT (R148). -/
def execFreeEndpoint (i : EpIx) (s : State) : Host.Outcome State Fault Refusal :=
  if decide (i = 0) || !s.validEp i || !(s.ep i).reserved then .next (s.answer .invalidArgs)
  else .next (((s.disableEp i).modEp i fun e => { e with reserved := false }).answer .ok)

/-- INVALID_COMMAND (R164). -/
def execInvalidCommand (_w : Word) (s : State) : Host.Outcome State Fault Refusal := .next (s.answer .invalidArgs)

end Sys2Proof.Machine
end

