-- ==== Sys2Proof/Machine/DeviceOps.lean ====
section
/-! DEFINITION. The device state machine: bus reset, suspend, resume, start of frame and upstream resume
(44_device_state.md), and the class driver's device-level operations (40_endpoint_ops.md, section 8). -/

namespace Sys2Proof.Machine

/-! ### Bus-level handlers -/

/-- What `BusReset` does to each endpoint first (R280). -/
def State.resetEp (s : State) (i : EpIx) : State :=
  let s1 := ((s.maskEpIrq i).dmaStopIfBusy i).cancelAll i .shutdown
  let s2 := s1.modEp i fun e =>
    { e with stalled := false, halted := false, txnullpkt := false, ctl := { e.ctl with forcestall := false } }
  (s2.setRxpend i false).withdrawTx i

/-- What `BusReset` then does to an endpoint other than EP0 (R280); its bank index is 0 after a bus reset, as the
table of R22 says of every endpoint. -/
def State.disableAfterReset (s : State) (i : EpIx) : State :=
  s.modEp i fun e => { e with state := .disabled, bank := 0, ctl := { e.ctl with enable := false } }

/-- EP0 reconfigured to its default descriptor (R280). -/
def State.defaultEp0 (s : State) : State :=
  let s1 := s.modEp 0 fun e =>
    { e with
      dir := .bidir
      type := .control
      mps := s.cfg.ep0MaxPacket
      banks := s.epBanks 0
      bank := 0
      ctl := { e.ctl with mps := s.cfg.ep0MaxPacket, enable := true } }
  (s1.unmaskEpIrq 0).setEpState 0 .idle

/-- The device record, `DEV_ADDR`, `DEV_CTL` and `INT_ENABLE` after a bus reset (R280, R342). -/
def State.defaultDevice (s : State) : State :=
  { s with
    dev := { s.dev with
      addr := 0, pendingAddr := 0, scratchCount := 0, rxpending := false, rwake := false, clkGated := false
      state := .default }
    devAddr := ⟨0, false⟩
    devCtl := { s.devCtl with clkgate := false }
    intEnable := IntEnable.reset s.cfg }

/-- `BusReset()` (R280). -/
def State.busReset (s : State) : State :=
  let s1 := { s with intPending := { s.intPending with busreset := false } }.notify .onDisconnect
  let s2 := s1.forEps s1.epList fun i s => s.resetEp i
  let s3 := s2.forEps (s2.epList.filter fun i => decide (i ≠ 0)) fun i s => s.disableAfterReset i
  s3.defaultEp0.defaultDevice

/-- `Suspend()` (R282). -/
def State.suspend (s : State) : State :=
  let s1 := { s with intPending := { s.intPending with suspend := false } }
  if s1.dev.state = .suspended then s1
  else
    let s2 := (s1.modDev fun d => { d with prevstate := d.state }).notify .onSuspend
    { s2 with dev := { s2.dev with state := .suspended, clkGated := true }, devCtl := { s2.devCtl with clkgate := true } }

/-- `DeviceResume()` (R286). -/
def State.deviceResume (s : State) : State :=
  let s1 := (s.modDev fun d => { d with state := d.prevstate }).notify .onResume
  { s1 with dev := { s1.dev with clkGated := false }, devCtl := { s1.devCtl with clkgate := false } }

/-- `Resume()` (R284). -/
def State.resume (s : State) : State :=
  let s1 := { s with intPending := { s.intPending with resume := false } }
  if s1.dev.state = .suspended then s1.deviceResume else s1

/-- `StartOfFrame()` (R294). -/
def State.startOfFrame (s : State) : State := { s with intPending := { s.intPending with sof := false } }

/-- `UpstreamResume()` (R296). -/
def State.upstreamResume (s : State) : State := { s with intPending := { s.intPending with upresume := false } }

/-! ### Operations -/

/-- GET_FRAME_NUMBER (R152). -/
def execGetFrameNumber (s : State) : Host.Outcome State Fault Refusal := .next { s with ret := .frame s.fnumWord }

/-- One turn of the busy-wait of `wakeup`: the hardware clears `RWAKE` in it if the bus agent's next action
is an RWAKE_DONE applied while the engine is busy (R46, R74, R97, R154). -/
def State.pollRwake (s : State) : State :=
  match s.input with
  | .stim true (code :: _) :: rest =>
    if code = 0x8C then { s with input := rest, devCtl := { s.devCtl with rwake := false } } else s
  | _ => s

/-- The bounded busy-wait of `wakeup` (R154, R362). -/
def spinRwake : Nat → State → State
  | 0, s => s
  | k + 1, s => if s.devCtl.rwake then spinRwake k s.pollRwake else s

/-- WAKEUP (R154). -/
def execWakeup (s : State) : Host.Outcome State Fault Refusal :=
  let s1 := if s.dev.state = .suspended then s.deviceResume else s
  let s2 := { s1 with devCtl := { s1.devCtl with rwake := true } }
  .next ((spinRwake s2.cfg.wakeupSpinBound s2).answer .ok)

/-- SET_SELF_POWERED (R156). -/
def execSetSelfPowered (b : Bool) (s : State) : Host.Outcome State Fault Refusal :=
  .next ((s.modDev fun d => { d with selfpowered := b }).answer .ok)

/-- SET_PULLUP (R158). -/
def execSetPullup (b : Bool) (s : State) : Host.Outcome State Fault Refusal :=
  let s1 := { s.modDev fun d => { d with pullup := b } with devCtl := { s.devCtl with pullup := b } }
  .next ((if !b && s.dev.state.poweredOrHigher then s1.modDev fun d => { d with state := .powered } else s1).answer .ok)

/-- BIND (R160). -/
def execBind (d : Ref) (s : State) : Host.Outcome State Fault Refusal :=
  if d = nullRef then .next (s.answer .invalidArgs)
  else if s.dev.driver ≠ nullRef then .next (s.answer .invalidArgs)
  else .next ((s.modDev fun r => { r with driver := d }).answer .ok)

/-- UNBIND (R162). The test of EP0's state governs both actions after it, as in `cancel` (assumption 10). -/
def execUnbind (s : State) : Host.Outcome State Fault Refusal :=
  if s.dev.driver = nullRef then .next (s.answer .invalidArgs)
  else
    let s1 := s.forEps (s.epList.filter fun i => decide (i ≠ 0)) fun i s => s.disableEp i
    let s2 := (s1.maskEpIrq 0).cancelAll 0 .shutdown
    let s3 := if (s2.ep 0).state ≠ .disabled then (s2.postCancel 0).unmaskEpIrq 0 else s2
    .next ((s3.modDev fun d => { d with driver := nullRef }).answer .ok)

end Sys2Proof.Machine
end

