-- ==== Sys2Proof/Machine/Stimuli.lean ====
section
/-! DEFINITION. The bus and DMA stimuli (R97): each sets hardware status and runs no engine code; the
dispatcher's handlers act on the status. A stimulus that names an endpoint or channel the engine does not
have changes nothing (R22, R306; assumption 11). -/

namespace Sys2Proof.Machine

/-- Apply a stimulus to an endpoint that exists. -/
def State.atEp (s : State) (i : EpIx) (f : State → State) : State := if s.validEp i then f s else s

/-- Apply a completion status to a DMA channel that exists: the status bit comes with
`INT_PENDING.DMA[c]` (R97, R204, R306). -/
def State.atChan (s : State) (c : EpIx) (f : State → State) : State :=
  if s.validEp c && s.hasDma c then (f s).setDmaPending c true else s

/-- What the controller drops at a bus reset: status bits, `TXPKTRDY` and the packets in the banks (R97). -/
def Endpoint.dropSession (e : Endpoint) : Endpoint :=
  { e with
    sta := { e.sta with txdone := false, rxrdy := false, stallsent := false, setup := false }
    ctl := { e.ctl with txpktrdy := false }
    fifo := Fifo.reset }

/-- BUS_BUSRESET (R97). -/
def execBusBusreset (s : State) : Host.Outcome State Fault Refusal :=
  let s1 := s.forEps s.epList fun i s => s.modEp i Endpoint.dropSession
  .next { s1 with intPending := { s1.intPending with busreset := true } }

/-- BUS_SUSPEND (R97). -/
def execBusSuspend (s : State) : Host.Outcome State Fault Refusal :=
  .next { s with intPending := { s.intPending with suspend := true } }

/-- BUS_RESUME (R97). -/
def execBusResume (s : State) : Host.Outcome State Fault Refusal :=
  .next { s with intPending := { s.intPending with resume := true } }

/-- BUS_SOF (R97): `FNUM` keeps bits 10:0. -/
def execBusSof (f : BitVec 16) (s : State) : Host.Outcome State Fault Refusal :=
  .next { s with fnum := f.setWidth 11, intPending := { s.intPending with sof := true } }

/-- BUS_UPRESUME (R97). -/
def execBusUpresume (s : State) : Host.Outcome State Fault Refusal :=
  .next { s with intPending := { s.intPending with upresume := true } }

/-- BUS_SETUP (R97). -/
def execBusSetup (i : EpIx) (p : SetupPacket) (s : State) : Host.Outcome State Fault Refusal :=
  .next (s.atEp i fun s => s.modEp i fun e =>
    { e with
      sta := { e.sta with setup := true, bytecnt := 8 }
      fifo := { e.fifo with setup := bytesOfNat 8 p.toNat } })

/-- The endpoint's max-packet size has been specified: it is enabled, or was configured before. Initialisation leaves
the field unspecified, and no configuration makes it 0 (R22, R120; assumptions 2 and 13). -/
def Endpoint.sized (e : Endpoint) : Bool := e.ctl.enable || decide (e.mps ≠ 0)

/-- The bytes received once a packet has come: on a DMA endpoint it follows those the channel has not taken yet
(R204), on any other the received bank holds this packet (R97; assumption 12). -/
def State.receivedWith (s : State) (i : EpIx) (bytes : List Byte) : List Byte :=
  if s.hasDma i then (s.ep i).fifo.rx ++ bytes else bytes

/-- The hardware holds a packet the engine left in its bank: held, and `RXRDY` still set (R187). -/
def Endpoint.holding (e : Endpoint) : Bool := e.rxpend && e.sta.rxrdy

/-- BUS_RXPKT (R97). A packet longer than the endpoint's max-packet size is refused (I20); only an endpoint never
configured has none (V-Q-17). While a packet is held the hardware keeps it and NAKs the OUT token: the bytes do not
arrive (R187). -/
def execBusRxpkt (i : EpIx) (bytes : List Byte) (s : State) : Host.Outcome State Fault Refusal :=
  if s.validEp i && (s.ep i).sized && decide ((s.ep i).mps.toNat < bytes.length) then .refused .oversizePacket
  else if (s.ep i).holding then .next s
  else .next (s.atEp i fun s => s.modEp i fun e =>
    { e with
      sta := { e.sta with rxrdy := true, bytecnt := BitVec.ofNat 16 bytes.length }
      fifo := { e.fifo with rx := s.receivedWith i bytes } })

/-- BUS_TXDONE (R97): a bank handed over with `TXPKTRDY` has gone to the host. With none handed over only the
status bit is set (I20). -/
def execBusTxdone (i : EpIx) (s : State) : Host.Outcome State Fault Refusal :=
  .next (s.atEp i fun s =>
    (if (s.ep i).ctl.txpktrdy then s.sendTx i else s).modSta i fun t => { t with txdone := true })

/-- BUS_STALLSENT (R97). -/
def execBusStallsent (i : EpIx) (s : State) : Host.Outcome State Fault Refusal :=
  .next (s.atEp i fun s => s.modSta i fun t => { t with stallsent := true })

/-- BUS_DMA_EOB (R97, R204): the channel moved its count less `rem` bytes; a remainder above the count tells
nothing about the bytes moved. The report ends the slice, as EOC and ERR do. -/
def execBusDmaEob (c : EpIx) (rem : BitVec 16) (s : State) : Host.Outcome State Fault Refusal :=
  .next (s.atChan c fun s =>
    let n := (s.ep c).chan.count
    let s1 := if rem ≤ n then s.moveSlice c (n - rem).toNat else s.scrambleSlice c
    s1.modChan c fun d => { d with eob := true, remcount := rem, running := false })

/-- BUS_DMA_EOC (R97, R204): the channel moved its whole count. -/
def execBusDmaEoc (c : EpIx) (s : State) : Host.Outcome State Fault Refusal :=
  .next (s.atChan c fun s =>
    (s.moveSlice c (s.ep c).chan.count.toNat).modChan c fun d => { d with eoc := true, remcount := 0, running := false })

/-- BUS_DMA_ERR (R97, R204): the channel ended after an unknown number of bytes. -/
def execBusDmaErr (c : EpIx) (s : State) : Host.Outcome State Fault Refusal :=
  .next (s.atChan c fun s => (s.scrambleSlice c).modChan c fun d => { d with err := true, running := false })

/-- BUS_RWAKE_DONE (R97): the hardware clears its remote-wakeup bit. -/
def execBusRwakeDone (s : State) : Host.Outcome State Fault Refusal :=
  .next { s with devCtl := { s.devCtl with rwake := false } }

end Sys2Proof.Machine
end

