-- ==== Sys2Proof/Machine/Ep0.lean ====
section
/-! DEFINITION. The EP0 control-transfer sequencer (43_ep0_control.md): the SETUP stage, the OUT data stage,
the standard requests and their dispatch, the final action and the deferred address. A SETUP instruction is
the packet EP0 receives: its meaning is the SETUP stage of R230 with that packet, followed, where no OUT data
stage is awaited, by the request's own rule and the final action of R258. -/

namespace Sys2Proof.Machine

/-- `Ep0Outcome` (R234, R258). -/
inductive Ep0Outcome where
  | success (resp : List Byte)
  | address
  | dispatched
  | stall
deriving DecidableEq, Repr

/-! ### Final action (R258, R262, R237) -/

/-- `Ep0Stall()` (R258). -/
def State.ep0Stall (s : State) : State := s.stallEp 0

/-- `Ep0Finish(outcome)` (R89, R258); `p` is the SETUP packet. -/
def State.ep0Finish (s : State) (p : SetupPacket) (o : Ep0Outcome) : State :=
  match o with
  | .success resp => ((s.fifoWrite 0 (resp.take p.length.toNat)).handTx 0).setEpState 0 .ep0StatusIn
  | .address => ((s.fifoWrite 0 []).handTx 0).setEpState 0 .ep0Address
  | .dispatched => s
  | .stall => s.ep0Stall

/-- `ApplyAddress()` (R262). -/
def State.applyAddress (s : State) : State :=
  let p := s.dev.pendingAddr
  let s1 := { s with
    devAddr := ⟨p, decide (p ≠ 0)⟩
    dev := { s.dev with addr := p, state := if p ≠ 0 then .address else .default } }
  let s2 := s1.setEpState 0 .idle
  if (s2.ep 0).queue.isEmpty then s2 else s2.startTransfer 0

/-- The configuration state update of an accepted SET_CONFIGURATION (R290). -/
def State.configureDevice (s : State) : State :=
  if s.dev.state = .address ∨ s.dev.state = .configured then
    s.modDev fun d => { d with state := if d.ctrl.value.extractLsb' 0 8 ≠ 0 then .configured else .address }
  else s

/-- The continuation step when `on_setup` returns (R237). -/
def State.onSetupReturn (s : State) (r : Result) : State :=
  if r ≠ .ok then s.ep0Stall
  else if s.dev.ctrl.rtype = 0 ∧ s.dev.ctrl.request = codeSetConfiguration then s.configureDevice
  else s

/-! ### Requests (R240 to R256): the state after the checks, and the outcome -/

/-- `Forward(out)` (R236). -/
def State.forward (s : State) (out : Option (List Byte)) : State × Ep0Outcome :=
  if s.dev.driver = nullRef then (s, .stall) else (s.callback (.onSetup s.dev.ctrl out), .dispatched)

/-- GET_STATUS (R88, R242). -/
def reqGetStatus (_out : Option (List Byte)) (s : State) : State × Ep0Outcome :=
  let p := s.dev.ctrl
  if p.length ≠ 2 ∨ p.dirIn = false ∨ p.index.extractLsb' 8 8 ≠ 0 ∨ p.value ≠ 0 then (s, .stall)
  else if p.recip = recipDevice then (s, .success (statusBytes s.dev.selfpowered s.dev.rwake))
  else if p.recip = recipEndpoint then
    match s.targetEp p.index with
    | none => (s, .stall)
    | some t => (s, .success (statusBytes (s.ep t).stalled false))
  else if p.recip = recipInterface then (s, .success (statusBytes false false))
  else (s, .stall)

/-- The endpoint a feature request names, if its checks hold (R245, R246). -/
def State.featureTarget (s : State) (p : SetupPacket) : Option EpIx :=
  if p.value = featEndpointHalt ∧ p.length = 0 then s.targetEp p.index else none

/-- CLEAR_FEATURE (R245). -/
def reqClearFeature (out : Option (List Byte)) (s : State) : State × Ep0Outcome :=
  let p := s.dev.ctrl
  if p.recip = recipEndpoint then
    match s.featureTarget p with
    | none => (s, .stall)
    | some t => (s.resumeEp t, .success [])
  else if p.recip = recipDevice ∧ p.value = featTestMode then (s, .success [])
  else s.forward out

/-- The endpoint action of SET_FEATURE (R246). -/
def State.haltEp (s : State) (t : EpIx) : State :=
  if t = 0 then s
  else
    let s1 := s.stallEp t
    if (s1.ep t).state = .stalled then s1.modEp t fun e => { e with halted := true } else s1

/-- SET_FEATURE (R246). -/
def reqSetFeature (out : Option (List Byte)) (s : State) : State × Ep0Outcome :=
  let p := s.dev.ctrl
  if p.recip = recipEndpoint then
    match s.featureTarget p with
    | none => (s, .stall)
    | some t => (s.haltEp t, .success [])
  else if p.recip = recipDevice ∧ p.value = featTestMode then (s, .success [])
  else s.forward out

/-- SET_ADDRESS (R248). -/
def reqSetAddress (_out : Option (List Byte)) (s : State) : State × Ep0Outcome :=
  let p := s.dev.ctrl
  if p.recip = recipDevice ∧ p.index = 0 ∧ p.length = 0 ∧ p.value ≤ 127 then
    (s.modDev fun d => { d with pendingAddr := p.value.extractLsb' 0 7 }, .address)
  else (s, .stall)

/-- GET_DESCRIPTOR (R249). -/
def reqGetDescriptor (out : Option (List Byte)) (s : State) : State × Ep0Outcome :=
  if s.dev.ctrl.recip = recipDevice then s.forward out else (s, .stall)

/-- SET_DESCRIPTOR (R250). -/
def reqSetDescriptor (out : Option (List Byte)) (s : State) : State × Ep0Outcome :=
  if s.dev.ctrl.recip = recipDevice then s.forward out else (s, .stall)

/-- GET_CONFIGURATION (R251). -/
def reqGetConfiguration (out : Option (List Byte)) (s : State) : State × Ep0Outcome :=
  let p := s.dev.ctrl
  if p.recip = recipDevice ∧ p.value = 0 ∧ p.index = 0 ∧ p.length = 1 then s.forward out else (s, .stall)

/-- SET_CONFIGURATION (R252). -/
def reqSetConfiguration (out : Option (List Byte)) (s : State) : State × Ep0Outcome :=
  let p := s.dev.ctrl
  if p.recip = recipDevice ∧ p.index = 0 ∧ p.length = 0 then s.forward out else (s, .stall)

/-- GET_INTERFACE (R253). -/
def reqGetInterface (out : Option (List Byte)) (s : State) : State × Ep0Outcome := s.forward out

/-- SET_INTERFACE (R254). -/
def reqSetInterface (out : Option (List Byte)) (s : State) : State × Ep0Outcome := s.forward out

/-- SYNCH_FRAME (R256). -/
def reqSynchFrame (_out : Option (List Byte)) (s : State) : State × Ep0Outcome := (s, .success [])

/-- An unknown standard request (R255). -/
def reqUnknownStandard (_out : Option (List Byte)) (s : State) : State × Ep0Outcome := (s, .stall)

/-- A request whose type is not standard (R240). -/
def reqNonstandard (out : Option (List Byte)) (s : State) : State × Ep0Outcome := s.forward out

/-! ### Dispatch (R234) -/

/-- The rule of a packet: by its type bits, then by its request code (R83, R85, R234). -/
def requestRule (p : SetupPacket) : Option (List Byte) → State → State × Ep0Outcome :=
  if p.rtype ≠ 0 then reqNonstandard
  else match p.request.toNat with
    | 0x00 => reqGetStatus
    | 0x01 => reqClearFeature
    | 0x03 => reqSetFeature
    | 0x05 => reqSetAddress
    | 0x06 => reqGetDescriptor
    | 0x07 => reqSetDescriptor
    | 0x08 => reqGetConfiguration
    | 0x09 => reqSetConfiguration
    | 0x0A => reqGetInterface
    | 0x0B => reqSetInterface
    | 0x0C => reqSynchFrame
    | _ => reqUnknownStandard

/-- Run a request's rule on the packet in `dev.ctrl` and take the final action. -/
def State.runRequest (s : State) (rule : Option (List Byte) → State → State × Ep0Outcome)
    (out : Option (List Byte)) : State :=
  let r := rule out s
  r.1.ep0Finish s.dev.ctrl r.2

/-- `Ep0Dispatch(out)` (R234). -/
def State.ep0Dispatch (s : State) (out : Option (List Byte)) : State := s.runRequest (requestRule s.dev.ctrl) out

/-! ### SETUP stage (R230 to R232) -/

/-- `SetupReceived` from the point where the eight bytes of packet `p` have been read from the bank; `go` runs
the request when no OUT data stage is awaited (R230, R231, R232). -/
def State.setupAccept (s : State) (p : SetupPacket) (go : State → State) : State :=
  let s1 := (s.modDev fun d => { d with ctrl := p }).ackSetup 0
  let s2 := s1.drain 0 .ok
  let s3 := (s2.modEp 0 fun e => { e with txnullpkt := false }).withdrawTx 0
  let s4 := s3.modDev fun d => { d with scratchCount := 0, pendingAddr := 0 }
  let s5 := if (s4.ep 0).state = .stalled then
      s4.modEp 0 fun e => { e with stalled := false, halted := false, ctl := { e.ctl with forcestall := false } }
    else s4
  if p.dirIn = false ∧ p.length ≠ 0 then
    if s5.cfg.ep0ScratchSize < p.length.toNat then (s5.setEpState 0 .idle).ep0Stall
    else s5.setEpState 0 .ep0DataOut
  else go (s5.setEpState 0 .idle)

/-- `SetupReceived()` (R230). -/
def State.setupReceived (s : State) : State :=
  let c := (s.ep 0).sta.bytecnt
  if (s.ep 0).state = .disabled then (s.discardSetup 0 c.toNat).ackSetup 0
  else if c ≠ 8 then ((s.discardSetup 0 c.toNat).ackSetup 0).ep0Stall
  else
    let r := s.fifoReadSetup 0 8
    r.2.setupAccept (packetOfBytes r.1) fun s => s.ep0Dispatch none

/-! ### OUT data stage (R233) -/

/-- Write bytes into the scratch buffer at an offset. -/
def spliceBytes (buf : List Byte) (off : Nat) (bs : List Byte) : List Byte :=
  buf.take off ++ bs ++ buf.drop (off + bs.length)

/-- EP0 has returned to `Idle`: a request queued meanwhile starts in the same step (R130, R174). -/
def State.startEp0 (s : State) : State := if (s.ep 0).state = .idle then s.startTransfer 0 else s

/-- `Ep0DataOutPacket()` (R233). If the dispatch leaves EP0 `Idle`, a request queued during the data stage starts
(R130, R174; that it starts after the dispatch is assumption 15). -/
def State.ep0DataOutPacket (s : State) : State :=
  let c := (s.ep 0).sta.bytecnt
  let n := lenMin c (s.dev.ctrl.length - s.dev.scratchCount)
  let r := s.fifoReadRx 0 n.toNat
  let s1 := (r.2.modDev fun d =>
    { d with
      scratch := spliceBytes d.scratch d.scratchCount.toNat r.1
      scratchCount := d.scratchCount + n }).releaseRx 0
  if s1.dev.scratchCount = s1.dev.ctrl.length ∨ c < (s1.ep 0).mps then
    ((s1.setEpState 0 .idle).ep0Dispatch (some (s1.dev.scratch.take s1.dev.scratchCount.toNat))).startEp0
  else s1

/-! ### The SETUP instructions -/

/-- EP0 receives packet `p`, whose request follows `rule` (R230): the eight bytes leave the SETUP bank, and a
disabled EP0 only discards them. -/
def State.receiveSetup (s : State) (p : SetupPacket) (rule : Option (List Byte) → State → State × Ep0Outcome) :
    State :=
  if (s.ep 0).state = .disabled then (s.discardSetup 0 8).ackSetup 0
  else (s.discardSetup 0 8).setupAccept p fun s => s.runRequest rule none

/-- SETUP_GET_STATUS (R242). -/
def execSetupGetStatus (a : SetupArgs) (s : State) : Host.Outcome State Fault Refusal :=
  .next (s.receiveSetup (packSetup 0 0x00 a) reqGetStatus)

/-- SETUP_CLEAR_FEATURE (R245). -/
def execSetupClearFeature (a : SetupArgs) (s : State) : Host.Outcome State Fault Refusal :=
  .next (s.receiveSetup (packSetup 0 0x01 a) reqClearFeature)

/-- SETUP_SET_FEATURE (R246). -/
def execSetupSetFeature (a : SetupArgs) (s : State) : Host.Outcome State Fault Refusal :=
  .next (s.receiveSetup (packSetup 0 0x03 a) reqSetFeature)

/-- SETUP_SET_ADDRESS (R248). -/
def execSetupSetAddress (a : SetupArgs) (s : State) : Host.Outcome State Fault Refusal :=
  .next (s.receiveSetup (packSetup 0 0x05 a) reqSetAddress)

/-- SETUP_GET_DESCRIPTOR (R249). -/
def execSetupGetDescriptor (a : SetupArgs) (s : State) : Host.Outcome State Fault Refusal :=
  .next (s.receiveSetup (packSetup 0 0x06 a) reqGetDescriptor)

/-- SETUP_SET_DESCRIPTOR (R250). -/
def execSetupSetDescriptor (a : SetupArgs) (s : State) : Host.Outcome State Fault Refusal :=
  .next (s.receiveSetup (packSetup 0 0x07 a) reqSetDescriptor)

/-- SETUP_GET_CONFIGURATION (R251). -/
def execSetupGetConfiguration (a : SetupArgs) (s : State) : Host.Outcome State Fault Refusal :=
  .next (s.receiveSetup (packSetup 0 0x08 a) reqGetConfiguration)

/-- SETUP_SET_CONFIGURATION (R252). -/
def execSetupSetConfiguration (a : SetupArgs) (s : State) : Host.Outcome State Fault Refusal :=
  .next (s.receiveSetup (packSetup 0 0x09 a) reqSetConfiguration)

/-- SETUP_GET_INTERFACE (R253). -/
def execSetupGetInterface (a : SetupArgs) (s : State) : Host.Outcome State Fault Refusal :=
  .next (s.receiveSetup (packSetup 0 0x0A a) reqGetInterface)

/-- SETUP_SET_INTERFACE (R254). -/
def execSetupSetInterface (a : SetupArgs) (s : State) : Host.Outcome State Fault Refusal :=
  .next (s.receiveSetup (packSetup 0 0x0B a) reqSetInterface)

/-- SETUP_SYNCH_FRAME (R256). -/
def execSetupSynchFrame (a : SetupArgs) (s : State) : Host.Outcome State Fault Refusal :=
  .next (s.receiveSetup (packSetup 0 0x0C a) reqSynchFrame)

/-- SETUP_UNKNOWN_STANDARD (R255). -/
def execSetupUnknownStandard (code : Byte) (a : SetupArgs) (s : State) : Host.Outcome State Fault Refusal :=
  .next (s.receiveSetup (packSetup 0 code a) reqUnknownStandard)

/-- SETUP_NONSTANDARD_CLASS (R240). -/
def execSetupNonstandardClass (code : Byte) (a : SetupArgs) (s : State) : Host.Outcome State Fault Refusal :=
  .next (s.receiveSetup (packSetup 1 code a) reqNonstandard)

/-- SETUP_NONSTANDARD_VENDOR (R240). -/
def execSetupNonstandardVendor (code : Byte) (a : SetupArgs) (s : State) : Host.Outcome State Fault Refusal :=
  .next (s.receiveSetup (packSetup 2 code a) reqNonstandard)

/-- SETUP_NONSTANDARD_RESERVED_TYPE (R108, R240). -/
def execSetupNonstandardReservedType (code : Byte) (a : SetupArgs) (s : State) : Host.Outcome State Fault Refusal :=
  .next (s.receiveSetup (packSetup 3 code a) reqNonstandard)

end Sys2Proof.Machine
end

