-- ==== Sys2Proof/Machine/Handlers.lean ====
section
/-! DEFINITION. The interrupt handlers: DMA completion (R205, R206), one endpoint's interrupt (R308 to R314)
and the choice of handler by source (R300). -/

namespace Sys2Proof.Machine

/-- Complete the head with a result, go `Idle` and start the next queued request (R205, R310, R313). -/
def State.completeAndStart (s : State) (i : EpIx) (r : Result) : State :=
  ((s.complete i r).setEpState i .idle).startTransfer i

/-- `EocIncomplete(i)` (R206). -/
def State.eocIncomplete (s : State) (i : EpIx) : State :=
  match s.cfg.eocPolicy with
  | .wait => s
  | .completeOk => s.completeAndStart i .ok

/-- Count `k` bytes of the finished slice of request `h`; for an OUT endpoint the cache over them is
invalidated first (R66, R205). -/
def State.countSlice (s : State) (i : EpIx) (h : Ref) (k : Len) : State :=
  let r := s.req h
  let s1 := if s.isIn i then s else s.emit (.cacheInvalidate (bufAt r.buf r.xfrd) k)
  s1.modReq h fun q => { q with xfrd := q.xfrd + k, inflight := 0 }

/-- The completion check of R205. -/
def State.dmaCheck (s : State) (i : EpIx) (h : Ref) : State :=
  if (s.req h).xfrd = (s.req h).len then s.completeAndStart i .ok else s.eocIncomplete i

/-- `DmaInterrupt(c)` (R205). The status may be a stale one, from before the slice the channel is now moving:
`EN <- 0` then stops that slice, which leaves its memory open (assumption 19). -/
def State.dmaInterrupt (s : State) (i : EpIx) : State :=
  let d := (s.ep i).chan
  let s1 := ((s.scrambleSlice i).modEp i fun e =>
    { e with
      chan := { e.chan with eob := false, eoc := false, err := false, en := false, running := false }
      dmaBusy := false }).setDmaPending i false
  match s1.peek i with
  | none => s1
  | some h =>
    if (s1.ep i).state ≠ .sending ∧ (s1.ep i).state ≠ .receiving then s1
    else
      let r := s1.req h
      if (d.eob && !d.eoc && !d.err) = true ∧ d.remcount ≤ r.inflight then
        let s2 := s1.countSlice i h (r.inflight - d.remcount)
        if (s2.req h).xfrd < (s2.req h).len then s2.dmaSlice i else s2.dmaCheck i h
      else if (d.eoc && !d.eob && !d.err) = true then (s1.countSlice i h r.inflight).dmaCheck i h
      else s1.completeAndStart i .ioError

/-- `TxDone(i)` (R310). -/
def State.txDone (s : State) (i : EpIx) : State :=
  match (s.ep i).state with
  | .sending =>
    if s.hasDma i then
      let s1 := s.modCtl i fun c => { c with txdoneIe := false }
      match s1.peek i with
      | none => s1
      | some h => if (s1.req h).len = 0 then s1.completeAndStart i .ok else s1
    else s.writeProcess i
  | .ep0StatusIn => s.writeProcess i
  | .ep0Address => s.applyAddress
  | .disabled | .stalled | .idle | .receiving | .ep0DataOut => s

/-- Hold a received packet in its bank (R187). -/
def State.holdRx (s : State) (i : EpIx) : State :=
  (s.setRxpend i true).modCtl i fun c => { c with rxrdyIe := false }

/-- `RxReady(i)` (R311, R312). -/
def State.rxReady (s : State) (i : EpIx) : State :=
  if (s.ep i).state = .receiving then s.readPacket i
  else if i = 0 then
    if (s.ep 0).state = .ep0DataOut then s.ep0DataOutPacket else s.releaseRx 0
  else if (s.ep i).state = .disabled then s.releaseRx i
  else s.holdRx i

/-- `StallSent(i)` (R313). -/
def State.stallSent (s : State) (i : EpIx) : State :=
  if (s.ep i).state = .stalled then s
  else
    let s1 := s.modCtl i fun c => { c with forcestall := false }
    if (s1.ep i).state = .sending ∨ (s1.ep i).state = .receiving then
      (s1.dmaStopIfBusy i).completeAndStart i .ioError
    else s1

/-- The SETUP status bit of endpoint `i` (R308, R314). -/
def State.setupStatus (s : State) (i : EpIx) : State :=
  if i = 0 then s.setupReceived else (s.discardSetup i (s.ep i).sta.bytecnt.toNat).ackSetup i

/-- `EpInterrupt(i)` (R308, R309): one sample, then every bit set in it, in the order TX-done, RX-ready,
STALL-sent, SETUP. -/
def State.epInterrupt (s : State) (i : EpIx) : State :=
  let t := (s.ep i).enabledSta
  let s1 := if t.txdone then (s.ackTxdone i).txDone i else s
  let s2 := if t.rxrdy then s1.rxReady i else s1
  let s3 := if t.stallsent then (s2.ackStallsent i).stallSent i else s2
  if t.setup then s3.setupStatus i else s3

/-- The handler of a source (R300). -/
def State.handle (s : State) : Source → State
  | .suspend => s.suspend
  | .sof => s.startOfFrame
  | .resume => s.resume
  | .busReset => s.busReset
  | .upResume => s.upstreamResume
  | .dma c => s.dmaInterrupt c
  | .ep i => s.epInterrupt i

/-- One action of the dispatcher (R300, R301): the first source of the rest of the pass that is still pending
has its handler run; with none left the pass ends. `below` is the context under the dispatcher. -/
def State.dispatchStep (s : State) (rest : List Source) (below : List Ctx) : State :=
  match rest.dropWhile (fun b => !s.stillPending b) with
  | [] => s.resample below
  | b :: later => { s with stack := .dispatch later :: below }.handle b

end Sys2Proof.Machine
end

