-- ==== Sys2Proof/Machine/Dispatch.lean ====
section
/-! DEFINITION. The meaning of every instruction: one arm per constructor of `Instr`, in the opcode table's
order, each one direct call. -/

namespace Sys2Proof.Machine

def exec (i : Instr) (s : State) : Host.Outcome State Fault Refusal :=
  match i with
  | .configureEndpoint e d => Sys2Proof.Machine.execConfigureEndpoint e d s
  | .disableEndpoint e => Sys2Proof.Machine.execDisableEndpoint e s
  | .allocateRequest => Sys2Proof.Machine.execAllocateRequest s
  | .freeRequest e h => Sys2Proof.Machine.execFreeRequest e h s
  | .submit e h => Sys2Proof.Machine.execSubmit e h s
  | .cancel e h => Sys2Proof.Machine.execCancel e h s
  | .stall e => Sys2Proof.Machine.execStall e s
  | .resumeStall e => Sys2Proof.Machine.execResumeStall e s
  | .allocateEndpoint n b t => Sys2Proof.Machine.execAllocateEndpoint n b t s
  | .freeEndpoint e => Sys2Proof.Machine.execFreeEndpoint e s
  | .getFrameNumber => Sys2Proof.Machine.execGetFrameNumber s
  | .wakeup => Sys2Proof.Machine.execWakeup s
  | .setSelfPowered b => Sys2Proof.Machine.execSetSelfPowered b s
  | .setPullup b => Sys2Proof.Machine.execSetPullup b s
  | .bind d => Sys2Proof.Machine.execBind d s
  | .unbind => Sys2Proof.Machine.execUnbind s
  | .invalidCommand w => Sys2Proof.Machine.execInvalidCommand w s
  | .busBusreset => Sys2Proof.Machine.execBusBusreset s
  | .busSuspend => Sys2Proof.Machine.execBusSuspend s
  | .busResume => Sys2Proof.Machine.execBusResume s
  | .busSof f => Sys2Proof.Machine.execBusSof f s
  | .busUpresume => Sys2Proof.Machine.execBusUpresume s
  | .busSetup e p => Sys2Proof.Machine.execBusSetup e p s
  | .busRxpkt e bs => Sys2Proof.Machine.execBusRxpkt e bs s
  | .busTxdone e => Sys2Proof.Machine.execBusTxdone e s
  | .busStallsent e => Sys2Proof.Machine.execBusStallsent e s
  | .busDmaEob c r => Sys2Proof.Machine.execBusDmaEob c r s
  | .busDmaEoc c => Sys2Proof.Machine.execBusDmaEoc c s
  | .busDmaErr c => Sys2Proof.Machine.execBusDmaErr c s
  | .busRwakeDone => Sys2Proof.Machine.execBusRwakeDone s
  | .setupGetStatus a => Sys2Proof.Machine.execSetupGetStatus a s
  | .setupClearFeature a => Sys2Proof.Machine.execSetupClearFeature a s
  | .setupSetFeature a => Sys2Proof.Machine.execSetupSetFeature a s
  | .setupSetAddress a => Sys2Proof.Machine.execSetupSetAddress a s
  | .setupGetDescriptor a => Sys2Proof.Machine.execSetupGetDescriptor a s
  | .setupSetDescriptor a => Sys2Proof.Machine.execSetupSetDescriptor a s
  | .setupGetConfiguration a => Sys2Proof.Machine.execSetupGetConfiguration a s
  | .setupSetConfiguration a => Sys2Proof.Machine.execSetupSetConfiguration a s
  | .setupGetInterface a => Sys2Proof.Machine.execSetupGetInterface a s
  | .setupSetInterface a => Sys2Proof.Machine.execSetupSetInterface a s
  | .setupSynchFrame a => Sys2Proof.Machine.execSetupSynchFrame a s
  | .setupUnknownStandard c a => Sys2Proof.Machine.execSetupUnknownStandard c a s
  | .setupNonstandardClass c a => Sys2Proof.Machine.execSetupNonstandardClass c a s
  | .setupNonstandardVendor c a => Sys2Proof.Machine.execSetupNonstandardVendor c a s
  | .setupNonstandardReservedType c a => Sys2Proof.Machine.execSetupNonstandardReservedType c a s

end Sys2Proof.Machine
end

