-- ==== Sys2Proof/Machine/Agents.lean ====
section
/-! DEFINITION. Which agent acts next (R7): the callbacks being delivered, the dispatcher, or the environment's
next action. One action is one atomic step of the engine or of the environment (R70, R71, R301). Also how a
table word is placed where the next action fetches. -/

namespace Sys2Proof.Machine

/-- End the atomic section of a step that ran engine code: the callbacks it collected become pending
(R12, R71). -/
def releaseOutcome : Host.Outcome State Fault Refusal → Host.Outcome State Fault Refusal
  | .next s => .next s.release
  | .fault f => .fault f
  | .refused r => .refused r

/-- Run the record at the head of the input: decode it and execute it. `rest` is the input after it. -/
def runRecord (p : Port) (bytes : List Byte) (rest : List Input) (s : State) : Host.Outcome State Fault Refusal :=
  match decode p bytes with
  | .ok (i, _) => releaseOutcome (exec i { s with input := rest })
  | .error e => .refused (.undecodable e)

/-- The class driver's callback returns: it leaves the context, and after `on_setup` the continuation step runs
(R71, R237). With no callback running there is nothing to return from. -/
def returnCallback (r : Result) (s : State) : State :=
  match s.stack with
  | .active (.onSetup _ _) :: below => (({ s with stack := below }).onSetupReturn r).release
  | .active _ :: below => { s with stack := below }
  | _ => s

/-- The class driver sets the fields of a request it owns (R130); on one the engine owns it is a fault (R366), and
a handle of no record names nothing. -/
def setRequest (h : Ref) (buf : Word) (len : Len) (nullpkt : Bool) (cb : Ref) (s : State) :
    Host.Outcome State Fault Refusal :=
  if s.hasReq h && s.engineOwns h then .fault .ownedRequestTouched
  else .next (s.modReq h fun q => { q with buf := buf, len := len, nullpkt := nullpkt, callback := cb })

/-- Whether an address lies in the buffer of a request the engine owns (R61, R72). -/
def State.ownedByEngine (s : State) (a : Word) : Bool :=
  s.reqs.any fun p => s.engineOwns p.1 && inRange p.2.buf p.2.len.toNat a

/-- The class driver writes memory; a byte of a buffer the engine owns takes any value (R72, I3). -/
def pokeBytes (a : Word) : List Byte → State → State
  | [], s => s
  | b :: rest, s =>
    if s.ownedByEngine a then
      pokeBytes (a + 1) rest ({ s with mem := writeByte s.mem a.toNat (Config.freeByte s.draws) }.draw 1)
    else pokeBytes (a + 1) rest { s with mem := writeByte s.mem a.toNat b }

/-- The environment acts: its next action, or, with none listed, the processor lets the dispatcher in (R300).
With nothing pending either, nothing runs (R340). -/
def environmentStep (s : State) : Host.Outcome State Fault Refusal :=
  match s.input with
  | [] => .next s.enterDispatch
  | .cmd bytes :: rest => runRecord .command bytes rest s
  | .stim _ bytes :: rest => runRecord .stimulus bytes rest s
  | .irq :: rest => .next ({ s with input := rest }).enterDispatch
  | .ret r :: rest => .next (returnCallback r { s with input := rest })
  | .setReq h buf len nullpkt cb :: rest => setRequest h buf len nullpkt cb { s with input := rest }
  | .poke a bytes :: rest => .next (pokeBytes a bytes { s with input := rest })

/-- One action of the machine. A pending callback is delivered first (R71, R301); while the dispatcher is in a
pass it acts, unless the bus applies a stimulus at this moment (R301, R364); otherwise the environment
acts. -/
def machineStep (s : State) : Host.Outcome State Fault Refusal :=
  match s.stack with
  | .pending c :: below => .next ({ s with stack := .active c :: below }.emit (.delivered c))
  | .dispatch rest :: below =>
    match s.input with
    | .stim true bytes :: later => runRecord .stimulus bytes later s
    | _ => .next (s.dispatchStep rest below).release
  | .active _ :: _ => environmentStep s
  | [] => environmentStep s

/-! ### Placing a table word -/

/-- Put a command or stimulus record at the head of the input, with nothing waiting to run before it. -/
def State.placeRecord (s : State) (r : Input) : State := { s with stack := [], input := r :: s.input }

/-- Put eight bytes into EP0's SETUP bank with the status a SETUP stimulus sets, and let the dispatcher stand
before EP0's interrupt with EP0 enabled and no other status of it set. -/
def State.placeSetup (s : State) (bytes : List Byte) : State :=
  let s1 := s.modEp 0 fun e =>
    { e with
      state := if e.state = .disabled then .idle else e.state
      irqEn := true
      sta := ⟨false, false, false, true, 8⟩
      ctl := { e.ctl with setupIe := true }
      fifo := { e.fifo with setup := bytes } }
  { s1 with stack := [.dispatch [.ep 0]], input := [] }

/-- Place the table word `w` of `nbits` bits where the next action fetches its instruction. -/
def State.placeWord (s : State) (nbits w : Nat) : State :=
  match tablePort nbits w with
  | .command => s.placeRecord (.cmd (tableBytes nbits w))
  | .stimulus => s.placeRecord (.stim true (tableBytes nbits w))
  | .setup => s.placeSetup ((tableBytes nbits w).take 8)

end Sys2Proof.Machine
end

