-- ==== Sys2Proof/Safety.lean ====
section
/-! DEFINITION. The terms the claims use: what a safe run is, what "memory is unchanged" means, the frames of the
endpoint operations and of the SETUP stage, and the invariants of the machine's state. -/

namespace Sys2Proof.Machine

/-! ### Safe runs -/

/-- A state from which the next step neither faults nor refuses. -/
def State.safe (s : State) : Prop := ∃ t, step s = .next t

/-- `t` is reached from `s` in steps that all answer a next state. -/
inductive Reaches (s : State) : State → Prop where
  | refl : Reaches s s
  | step {t u : State} : Reaches s t → Sys2Proof.Machine.step t = .next u → Reaches s u

/-! ### Memory -/

/-- Every byte of memory reads in `t` as it read in `s`. -/
def SameMemory (s t : State) : Prop := ∀ a : Nat, readByte t.mem a = readByte s.mem a

/-- Every byte outside the `n` bytes from `base` upward reads in `t` as it read in `s`. -/
def SameMemoryOutside (base : Word) (n : Nat) (s t : State) : Prop :=
  ∀ a : Nat, (∀ k, k < n → a ≠ (base + BitVec.ofNat 32 k).toNat) → readByte t.mem a = readByte s.mem a

/-- How many bytes from `DMA_ADDR[i]` are open while the channel of endpoint `i` moves a slice (I14): its whole count
for an OUT slice, else none. -/
def State.liveSlice (s : State) (i : EpIx) : Nat :=
  if (s.ep i).chan.running && !s.isIn i then (s.ep i).chan.count.toNat else 0

/-- How many bytes from `DMA_ADDR[i]` stopping a busy channel leaves open (R207, I14). -/
def State.openSlice (s : State) (i : EpIx) : Nat := if (s.ep i).dmaBusy then s.liveSlice i else 0

/-- What a DMA channel that stopped with `n` bytes of its slice open leaves of the received bytes: all but at most
the first `n` (assumption 19). -/
def RxLeft (n : Nat) (before after : List Byte) : Prop := ∃ k, k ≤ n ∧ after = before.drop k

/-- The request into whose buffer a packet held for endpoint `i` goes when its queue starts: the first that asks
for a byte (R189, R192). -/
def State.heldReader (s : State) (i : EpIx) : Option Ref := (s.ep i).queue.find? fun h => decide ((s.req h).len ≠ 0)

/-- Where starting the queue of endpoint `i` stores a held packet, and how many bytes of it (R189, R190): nowhere on
a DMA endpoint, on an IN endpoint, with no packet held or with no request for it. -/
def State.heldStore (s : State) (i : EpIx) : Word × Nat :=
  match s.heldReader i with
  | none => (0, 0)
  | some h =>
    if s.hasDma i || s.isIn i || !(s.ep i).rxpend then (0, 0)
    else (bufAt (s.req h).buf (s.req h).xfrd,
      (lenMin (s.ep i).sta.bytecnt ((s.req h).len - (s.req h).xfrd)).toNat)

/-- `submit` accepts request `h` for endpoint `i` (R130): every check of the rule holds. -/
structure State.accepts (s : State) (i : EpIx) (h : Ref) : Prop where
  valid : s.validEp i = true
  reserved : (s.ep i).reserved = true
  notNull : h ≠ nullRef
  exists_ : s.hasReq h = true
  callback : (s.req h).callback ≠ nullRef
  buffer : (s.req h).buf = 0 → (s.req h).len = 0
  owner : s.engineOwns h = false
  bound : s.dev.driver ≠ nullRef
  enabled : (s.ep i).state ≠ .disabled

/-- A request as an accepted `submit` hands it to the engine (R31, R130). -/
def submitted (q : Request) : Request :=
  { q with xfrd := 0, inflight := 0, started := false, result := none, owner := .engine }

/-- A request as `complete` leaves it (R171). -/
def completed (r : Result) (q : Request) : Request := { q with result := some r, inflight := 0, owner := .driver }

/-- Endpoint `i` is in a data transfer (R24). -/
def State.moving (s : State) (i : EpIx) : Bool :=
  decide ((s.ep i).state = .sending) || decide ((s.ep i).state = .receiving)

/-- What shutting an endpoint down leaves of its DMA channel: stopped and its status cleared if a slice was
programmed (R207). -/
def Endpoint.stoppedChan (e : Endpoint) (ie : Bool) : DmaChan :=
  { e.chan with
    ie := ie
    en := if e.dmaBusy then false else e.chan.en
    eob := if e.dmaBusy then false else e.chan.eob
    eoc := if e.dmaBusy then false else e.chan.eoc
    err := if e.dmaBusy then false else e.chan.err
    running := if e.dmaBusy then false else e.chan.running }

/-- Every request queued on endpoint `i` was completed with `r`, head first, keeping its count of bytes, and the queue
is empty (R171, R172). -/
def State.drainedTo (i : EpIx) (r : Result) (s t : State) : Prop :=
  (t.ep i).queue = [] ∧ t.cbList = s.cbList ++ (s.ep i).queue.map (fun h => .done i h r) ∧
  ∀ h, h ∈ (s.ep i).queue → s.hasReq h = true → t.req h = completed r (s.req h)

/-! ### What an operation on one endpoint may change -/

/-- Of the Device record the operations on endpoint `i` may change only `rxpending` and, for EP0, the count of the
OUT data stage and the pending address. -/
structure DevFrame (i : EpIx) (d d' : Device) : Prop where
  state : d'.state = d.state
  prevstate : d'.prevstate = d.prevstate
  addr : d'.addr = d.addr
  selfpowered : d'.selfpowered = d.selfpowered
  rwake : d'.rwake = d.rwake
  ctrl : d'.ctrl = d.ctrl
  driver : d'.driver = d.driver
  scratch : d'.scratch = d.scratch
  pullup : d'.pullup = d.pullup
  clkGated : d'.clkGated = d.clkGated
  ep0 : i ≠ 0 → d'.scratchCount = d.scratchCount ∧ d'.pendingAddr = d.pendingAddr

/-- The frame of the operations on endpoint `i`, which may touch the requests `hs` (those queued on it): every
other endpoint, every other request, every register of another unit and the operands the class driver gave a
request are as before; callbacks and events are only added. -/
structure EpFrame (i : EpIx) (hs : List Ref) (s t : State) : Prop where
  cfg : t.cfg = s.cfg
  nextReq : t.nextReq = s.nextReq
  descOwner : t.descOwner = s.descOwner
  intEnable : t.intEnable = s.intEnable
  devAddr : t.devAddr = s.devAddr
  devCtl : t.devCtl = s.devCtl
  fnum : t.fnum = s.fnum
  stack : t.stack = s.stack
  input : t.input = s.input
  reqPool : t.reqPool = s.reqPool
  dev : DevFrame i s.dev t.dev
  /-- Of `INT_PENDING` only the bit `DMA[i]`. -/
  intPending : t.intPending = { s.intPending with dma := t.intPending.dma }
  dmaBits : ∀ c : EpIx, c ≠ i → t.intPending.dma.getLsbD c.val = s.intPending.dma.getLsbD c.val
  other : ∀ j : EpIx, j ≠ i → t.ep j = s.ep j
  reserved : (t.ep i).reserved = (s.ep i).reserved
  queue : ∀ h, h ∈ (t.ep i).queue → h ∈ hs
  handles : t.reqs.map Prod.fst = s.reqs.map Prod.fst
  requests : ∀ h, h ∉ hs → t.req h = s.req h
  operands : ∀ h, (t.req h).buf = (s.req h).buf ∧ (t.req h).len = (s.req h).len ∧
    (t.req h).nullpkt = (s.req h).nullpkt ∧ (t.req h).callback = (s.req h).callback
  callbacks : ∃ new : List Callback, t.cbList = s.cbList ++ new ∧
    ∀ c, c ∈ new → ∃ h r, c = .done i h r ∧ h ∈ hs
  log : s.log <+: t.log
  draws : s.draws ≤ t.draws

/-! ### What starting a queue leaves -/

/-- The fields of an endpoint that moving data never writes. -/
structure Endpoint.Kept (e e' : Endpoint) : Prop where
  reserved : e'.reserved = e.reserved
  dir : e'.dir = e.dir
  type : e'.type = e.type
  mps : e'.mps = e.mps
  banks : e'.banks = e.banks
  stalled : e'.stalled = e.stalled
  halted : e'.halted = e.halted
  irqEn : e'.irqEn = e.irqEn
  enable : e'.ctl.enable = e.ctl.enable
  forcestall : e'.ctl.forcestall = e.ctl.forcestall
  ctlMps : e'.ctl.mps = e.ctl.mps
  stallsentIe : e'.ctl.stallsentIe = e.ctl.stallsentIe
  setupIe : e'.ctl.setupIe = e.ctl.setupIe

/-- The endpoint is in a transfer with a head, or `Idle` with an empty queue. -/
def Endpoint.settled (e : Endpoint) : Prop :=
  ((e.state = .sending ∨ e.state = .receiving) ∧ e.queue ≠ []) ∨ (e.state = .idle ∧ e.queue = [])

/-! ### What the SETUP stage leaves (R230 to R232, R258) -/

/-- EP0's record after a SETUP packet that did not stall it: in state `x`, its queue empty, the status bit
acknowledged, the eight bytes taken from the bank, a stall cleared, and `bytes`, if any, handed over as an IN
packet. -/
def ep0After (e : Endpoint) (x : EpState) (bytes : Option (List Byte)) : Endpoint :=
  { e with
    state := x
    stalled := if e.state = .stalled then false else e.stalled
    halted := if e.state = .stalled then false else e.halted
    txnullpkt := false
    queue := []
    sta := { e.sta with setup := false }
    ctl := { e.ctl with
      txpktrdy := bytes.isSome
      forcestall := if e.state = .stalled then false else e.ctl.forcestall }
    fifo := { e.fifo with fill := [], tx := bytes.toList, setup := e.fifo.setup.drop 8 } }

/-- EP0's record after a SETUP packet that stalled it. -/
def ep0AfterStall (e : Endpoint) : Endpoint :=
  { ep0After e .stalled none with stalled := true, ctl := { (ep0After e .stalled none).ctl with forcestall := true } }

/-- Everything a SETUP packet `p` on EP0 changes outside EP0's own record: the Device record's SETUP fields, the
requests queued on EP0, completed `Ok` in order, and the callbacks, those completions and then `more`. Every other
endpoint, register, byte of memory and request is as before. -/
structure SetupFrame (p : SetupPacket) (pending : BitVec 7) (more : List Callback) (s t : State) : Prop where
  rest : t = { s with
    eps := t.eps
    reqs := t.reqs
    cbList := s.cbList ++ (s.ep 0).queue.map (fun h => .done 0 h .ok) ++ more
    dev := { s.dev with ctrl := p, scratchCount := 0, pendingAddr := pending } }
  other : ∀ j : EpIx, j ≠ 0 → t.ep j = s.ep j
  handles : t.reqs.map Prod.fst = s.reqs.map Prod.fst
  requests : ∀ h, t.req h = if h ∈ (s.ep 0).queue ∧ s.hasReq h = true then completed .ok (s.req h) else s.req h

/-- EP0 answers the packet `p` with the bytes `resp`, clipped to its length field (R89, R258). -/
def Answers (p : SetupPacket) (resp : List Byte) (s t : State) : Prop :=
  t.ep 0 = ep0After (s.ep 0) .ep0StatusIn (some (resp.take p.length.toNat)) ∧ SetupFrame p 0 [] s t

/-- EP0 answers the packet `p` with a stall (R258). -/
def Stalls (p : SetupPacket) (s t : State) : Prop :=
  t.ep 0 = ep0AfterStall (s.ep 0) ∧ SetupFrame p 0 [] s t

/-- EP0 hands the packet `p` to the class driver, or stalls with none bound (R236). -/
def Forwards (p : SetupPacket) (s t : State) : Prop :=
  if s.dev.driver = nullRef then Stalls p s t
  else t.ep 0 = ep0After (s.ep 0) .idle none ∧ SetupFrame p 0 [.onSetup p none] s t

/-- The packet of a SETUP instruction, read from its encoding (R81). -/
def setupOf (i : Instr) : SetupPacket := packetOfBytes (encode i)

/-- The operands of a SETUP instruction; `none` for any other. -/
def setupArgs : Instr → Option SetupArgs
  | .setupGetStatus a | .setupClearFeature a | .setupSetFeature a | .setupSetAddress a | .setupGetDescriptor a
  | .setupSetDescriptor a | .setupGetConfiguration a | .setupSetConfiguration a | .setupGetInterface a
  | .setupSetInterface a | .setupSynchFrame a | .setupUnknownStandard _ a | .setupNonstandardClass _ a
  | .setupNonstandardVendor _ a | .setupNonstandardReservedType _ a => some a
  | _ => none

/-- The frame of a feature request on EP0 that acts on endpoint `e`, which is not EP0: EP0 answers with a zero-length
packet, and outside EP0 and `e` only what EP0's SETUP stage and an operation on `e` may change has changed. -/
structure FeatureFrame (p : SetupPacket) (e : EpIx) (s t : State) : Prop where
  ep0 : t.ep 0 = ep0After (s.ep 0) .ep0StatusIn (some [])
  other : ∀ j : EpIx, j ≠ 0 → j ≠ e → t.ep j = s.ep j
  rest : t = { s with
    eps := t.eps, reqs := t.reqs, cbList := t.cbList, mem := t.mem, log := t.log, draws := t.draws
    intPending := { s.intPending with dma := t.intPending.dma }
    dev := { s.dev with ctrl := p, scratchCount := 0, pendingAddr := 0, rxpending := t.dev.rxpending } }
  dmaBits : ∀ c : EpIx, c ≠ e → t.intPending.dma.getLsbD c.val = s.intPending.dma.getLsbD c.val
  handles : t.reqs.map Prod.fst = s.reqs.map Prod.fst
  requests : ∀ h, h ∉ (s.ep 0).queue → h ∉ (s.ep e).queue → t.req h = s.req h
  callbacks : ∃ more, t.cbList = s.cbList ++ (s.ep 0).queue.map (fun h => .done 0 h .ok) ++ more ∧
    ∀ c, c ∈ more → ∃ h r, c = .done e h r ∧ h ∈ (s.ep e).queue

/-- A SETUP packet announces an OUT data stage (R230). -/
def outData (a : SetupArgs) : Bool := !a.dirIn && decide (a.length ≠ 0)

/-! ### Invariants -/

/-- The flags of one endpoint agree with its state (R23, R25): `stalled` is the state `Stalled`, `halted` only with
it, and the EP0 stages only on EP0. Between two steps no transmit bank is half filled (R42), and `TXPKTRDY` says that
one was handed over. -/
def Endpoint.consistent (i : EpIx) (e : Endpoint) : Prop :=
  e.stalled = decide (e.state = .stalled) ∧ (e.halted = true → e.stalled = true) ∧
  (i ≠ 0 → e.state ≠ .ep0DataOut ∧ e.state ≠ .ep0StatusIn ∧ e.state ≠ .ep0Address) ∧
  e.fifo.fill = [] ∧ (e.ctl.txpktrdy = true → e.fifo.tx ≠ [])

/-- R23 and R25 for every endpoint of an engine with at least one (R8). -/
def State.endpointsConsistent (s : State) : Prop :=
  1 ≤ s.cfg.numEp ∧ ∀ i : EpIx, (s.ep i).consistent i

/-- R26 (d) and R174: an endpoint in a transfer has a head request, and an `Idle` endpoint has none. -/
def State.queuesConsistent (s : State) : Prop :=
  1 ≤ s.cfg.numEp ∧ ∀ i : EpIx,
    ((s.ep i).state = .sending ∨ (s.ep i).state = .receiving → (s.ep i).queue ≠ []) ∧
    ((s.ep i).state = .idle → (s.ep i).queue = [])

/-- The copies of one fact agree: `dev.rxpending` is the OR of the endpoints' flags (R35), `dev.addr` mirrors
`DEV_ADDR`, enabled exactly for an address other than 0 (R44, R262), `PULLUP` mirrors `dev.pullup` (R47), `CLKGATE`
mirrors `dev.clk_gated` (R289), and `INT_ENABLE` holds the set of R342. No rule sets `dev.rwake` (I25). -/
def State.mirrored (s : State) : Prop :=
  s.dev.rxpending = s.epList.any (fun k => (s.ep k).rxpend) ∧
  s.devAddr.faddr = s.dev.addr ∧ s.devAddr.faddrEn = decide (s.dev.addr ≠ 0) ∧
  s.devCtl.pullup = s.dev.pullup ∧ s.devCtl.clkgate = s.dev.clkGated ∧
  s.intEnable = IntEnable.reset s.cfg ∧ s.dev.rwake = false

/-- Ownership, as SUBMIT and `complete` write the field `owner` (R130, R171): every queued request exists, is marked as
the engine's and is queued once on one endpoint; every request so marked is queued; handles are never null and all below
the next one until none is left. R31's ownership, which lasts until the callback, is `State.engineOwns`. -/
structure State.ownership (s : State) : Prop where
  distinct : (s.reqs.map Prod.fst).Nodup
  issued : ∀ h, s.hasReq h = true → h ≠ nullRef ∧ (s.nextReq = nullRef ∨ h < s.nextReq)
  queued : ∀ i h, h ∈ (s.ep i).queue → s.hasReq h = true ∧ (s.req h).owner = .engine
  once : ∀ i, (s.ep i).queue.Nodup
  apart : ∀ i j h, i ≠ j → h ∈ (s.ep i).queue → h ∉ (s.ep j).queue
  onQueue : ∀ h, (s.req h).owner = .engine → ∃ i, h ∈ (s.ep i).queue

/-- The counts of requests (R26 (b) and (c), R195) and the running DMA slices (R203) over R31: for a request of the
engine `xfrd + inflight <= len`, so that no counter wraps; only the head of an endpoint in a transfer is started or has bytes
counted or in flight, with none in flight while an endpoint without DMA receives; a running channel moves exactly the
bytes in flight of its endpoint's head; and the enables keep DMA endpoints off the packet path and the others off the DMA path
(R119, R210). `DMA_FIFO_CAP` is at least 1 (R8). -/
structure State.accounted (s : State) : Prop where
  hasEp0 : 1 ≤ s.cfg.numEp
  capacity : s.cfg.dmaFifoCap ≠ 0
  owned : s.ownership
  counts : ∀ h, (s.req h).owner = .engine →
    (s.req h).xfrd.toNat + (s.req h).inflight.toNat ≤ (s.req h).len.toNat
  flight : ∀ i h, h ∈ (s.ep i).queue → (s.req h).started = true ∨ (s.req h).inflight ≠ 0 ∨ (s.req h).xfrd ≠ 0 →
    (s.ep i).queue.head? = some h ∧ s.moving i = true
  reading : ∀ i h, (s.ep i).state = .receiving → s.hasDma i = false → (s.ep i).queue.head? = some h →
    (s.req h).inflight = 0
  slice : ∀ i, (s.ep i).chan.running = true → s.hasDma i = true ∧ (s.ep i).dmaBusy = true ∧
    (s.ep i).chan.count ≠ 0 ∧ ∃ h, (s.ep i).queue.head? = some h ∧ (s.ep i).chan.count = (s.req h).inflight ∧
      (s.ep i).chan.addr = bufAt (s.req h).buf (s.req h).xfrd
  dmaIe : ∀ i, (s.ep i).chan.ie = true → s.hasDma i = true
  rxIe : ∀ i, (s.ep i).ctl.rxrdyIe = true → s.hasDma i = false

/-- Address `x` lies in the buffer of a request that satisfies `p` (R61). -/
def State.inBuffer (s : State) (p : Request → Prop) (x : Word) : Prop :=
  ∃ h, s.hasReq h = true ∧ p (s.req h) ∧ inRange (s.req h).buf (s.req h).len.toNat x = true

/-- The bit of a source in `INT_PENDING` and `INT_ENABLE` (R100). -/
def Source.bit : Source → Nat
  | .suspend => 0
  | .sof => 1
  | .resume => 2
  | .busReset => 3
  | .upResume => 4
  | .ep i => 16 + i.val
  | .dma c => 32 + c.val

/-- The order of the sources in a pass (R302). -/
def Source.rank : Source → Nat
  | .suspend => 0
  | .sof => 1
  | .resume => 2
  | .busReset => 3
  | .upResume => 4
  | .dma c => 5 + c.val
  | .ep i => 21 + i.val

end Sys2Proof.Machine
end

