-- ==== Sys2Proof/Certificates/Slice0/Obligations.lean ====
section
/-! DEFINITION. The statements for the provers: what the spec's rules say of the engine, as properties of the
model. A statement that rests on a choice of the model says so and names the assumption's number. -/

open Sys2Proof Sys2Proof.Machine

/-! ### Encodings -/

/-- Decoding an encoded well-formed instruction, whatever follows its record, gives it back with what follows
(R81, R90, R95, R97; the layout of arguments is assumption 5). -/
def Obligations.DecodeOfEncode : Prop :=
  ∀ (i : Instr) (rest : List Byte), i.wellFormed = true → decode (portOf i) (encode i ++ rest) = .ok (i, rest)

/-- Every 8-byte SETUP packet decodes to a well-formed SETUP instruction whose encoding is the packet: no bit of a
packet is dropped (R81, R83, R85). -/
def Obligations.SetupPacketsReadBack : Prop :=
  ∀ p : SetupPacket, (decodeSetup p).wellFormed = true ∧ portOf (decodeSetup p) = .setup ∧ setupOf (decodeSetup p) = p

/-- A command word whose `op` is not in the table, or whose bits 31:15 are not zero, decodes to INVALID_COMMAND,
which returns `InvalidArgs` and writes no state (R164). -/
def Obligations.InvalidCommandsChangeNothing : Prop :=
  ∀ (w arg : Word) (s : State),
    (w.extractLsb' 15 17 ≠ 0 ∨ (w.extractLsb' 0 8).toNat = 0 ∨ 0x0F < (w.extractLsb' 0 8).toNat) →
      decodeCommand w arg = .invalidCommand w ∧
      exec (.invalidCommand w) s = .next { s with ret := .result .invalidArgs }

/-- Words written out from the encodings decode to their instructions (V-ENC vectors: R81, R95, R97). R95 and R97 fix the
command word and the stimulus code; that the CONFIGURE_ENDPOINT argument is the word 0x00400281 and the SOF record the
bytes 83 FF 07 is the model's layout of arguments (assumption 5). -/
def Obligations.SampleWordsDecode : Prop :=
  decodeCommand 0x00001107 0 = .resumeStall 1 ∧
  decodeCommand 0x00005308 0 = .allocateEndpoint 3 true .bulk ∧
  decodeCommand 0x00000201 0x00400281 = .configureEndpoint 2 ⟨0x81, 0x02, 64⟩ ∧
  decode .stimulus [0x83, 0xFF, 0x07] = .ok (.busSof 0x7FF, []) ∧
  decode .setup [0x00, 0x05, 0x05, 0x00, 0x00, 0x00, 0x00, 0x00] = .ok (.setupSetAddress ⟨false, 0, 5, 0, 0⟩, []) ∧
  decode .setup [0x21, 0x09, 0x00, 0x02, 0x00, 0x00, 0x08, 0x00] =
    .ok (.setupNonstandardClass 0x09 ⟨false, 1, 0x200, 0, 8⟩, [])

/-! ### Steps -/

/-- When the record at the head of the input decodes to instruction `i`, the step executes `i` with the record
consumed, and makes the callbacks it collected pending: a command or stimulus record while no engine code is between
two steps, and a stimulus marked as arriving now even inside a pass of the dispatcher (R70, R71, R301). That the next action is
the head of the input, and the records' layout, are the model's (assumptions 5 and 16). -/
def Obligations.StepRunsDecodedRecord : Prop :=
  ∀ (s : State) (i : Instr) (bytes more : List Byte) (now : Bool) (rest : List Input),
    let idle := s.stack = [] ∨ ∃ c below, s.stack = .active c :: below
    (idle → s.input = .cmd bytes :: rest → decode .command bytes = .ok (i, more) →
      step s = releaseOutcome (exec i { s with input := rest })) ∧
    (idle → s.input = .stim now bytes :: rest → decode .stimulus bytes = .ok (i, more) →
      step s = releaseOutcome (exec i { s with input := rest })) ∧
    (∀ later below, s.stack = .dispatch later :: below → s.input = .stim true bytes :: rest →
      decode .stimulus bytes = .ok (i, more) → step s = releaseOutcome (exec i { s with input := rest }))

/-- When the dispatcher reaches EP0 with only the SETUP status enabled and set, and the SETUP bank holds the
encoding of the SETUP instruction `i`, the step executes `i` with the dispatcher past EP0 (R230, R234, R308). -/
def Obligations.StepRunsSetupPacket : Prop :=
  ∀ (s : State) (i : Instr) (later : List Source) (below : List Ctx),
    portOf i = .setup → i.wellFormed = true →
    s.stack = .dispatch (.ep 0 :: later) :: below → (∀ bytes rest, s.input ≠ .stim true bytes :: rest) →
    s.stillPending (.ep 0) = true → (s.ep 0).enabledSta = ⟨false, false, false, true, 8⟩ →
    (s.ep 0).fifo.setup = encode i →
      step s = releaseOutcome (exec i { s with stack := .dispatch later :: below })

/-- A pending callback is delivered before anything else runs. Inside a pass, while no stimulus marked as arriving now
stands at the head of the input, the dispatcher runs the handler of the first sampled source that is still pending and
skips those before it; with none left it re-samples, returning if nothing is pending and enabled and starting a new pass
otherwise. The dispatcher is entered, with a sample of what is pending and enabled and nothing saved, when the processor
lets it in or nothing else is listed to happen, if something is pending and enabled and it is not running already: it is
not re-entered (R71, R300, R301, R305, R318, R319). When the processor lets it in is the model's (assumption 16). -/
def Obligations.DispatcherRunsStillPendingSources : Prop :=
  ∀ (s : State) (c : Callback) (rest : List Source) (below : List Ctx),
    (s.stack = .pending c :: below →
      step s = .next { s with stack := .active c :: below, log := s.log ++ [.delivered c] }) ∧
    (s.stack = .dispatch rest :: below → (∀ bytes more, s.input ≠ .stim true bytes :: more) →
      (∀ pre b later, rest = pre ++ b :: later → (∀ x, x ∈ pre → s.stillPending x = false) →
        s.stillPending b = true →
        step s = .next ({ s with stack := .dispatch later :: below }.handle b).release) ∧
      ((∀ x, x ∈ rest → s.stillPending x = false) →
        ((∀ x, s.stillPending x = false) →
          step s = .next { s with cbList := [], stack := s.cbList.map .pending ++ below }) ∧
        ((∃ x, s.stillPending x = true) →
          step s = .next { s with cbList := [], stack := s.cbList.map .pending ++ .dispatch s.sample :: below }))) ∧
    (s.stack = [] ∨ (∃ k under, s.stack = .active k :: under) → ∀ later : List Input,
      s.input = .irq :: later ∨ (s.input = [] ∧ later = []) →
      ((∀ r, .dispatch r ∉ s.stack) → (∃ x, s.stillPending x = true) →
        step s = .next { s with input := later, stack := .dispatch s.sample :: s.stack }) ∧
      ((∃ r, .dispatch r ∈ s.stack) ∨ (∀ x, s.stillPending x = false) → step s = .next { s with input := later }))

/-- A sample holds exactly the sources pending and enabled at that moment, each once, in the fixed priority order; a
source is so exactly when its bit is 1 in `INT_PENDING` and in `INT_ENABLE`, and for a DMA channel also in `DMA_CTL.IE`.
Bit 16 + i of `INT_PENDING` is 1 exactly when endpoint i exists and has a status bit set whose enable is set, and bit
16 + i of `INT_ENABLE` is `irq_en`; the other bits are the stored ones (R40, R100, R300, R302, R304, R342). -/
def Obligations.SampleHoldsPendingSourcesInOrder : Prop :=
  ∀ s : State, s.sample.Pairwise (fun a b => a.rank < b.rank) ∧ (∀ b, b ∈ s.sample ↔ s.stillPending b = true) ∧
    (∀ b : Source, s.stillPending b = (s.intPendingWord.getLsbD b.bit && s.intEnableWord.getLsbD b.bit &&
      match b with
      | .dma c => (s.ep c).chan.ie
      | .suspend | .sof | .resume | .busReset | .upResume | .ep _ => true)) ∧
    (s.intPendingWord.getLsbD 0 = s.intPending.suspend ∧ s.intPendingWord.getLsbD 1 = s.intPending.sof ∧
      s.intPendingWord.getLsbD 2 = s.intPending.resume ∧ s.intPendingWord.getLsbD 3 = s.intPending.busreset ∧
      s.intPendingWord.getLsbD 4 = s.intPending.upresume) ∧
    (s.intEnableWord.getLsbD 0 = s.intEnable.suspend ∧ s.intEnableWord.getLsbD 1 = s.intEnable.sof ∧
      s.intEnableWord.getLsbD 2 = s.intEnable.resume ∧ s.intEnableWord.getLsbD 3 = s.intEnable.busreset ∧
      s.intEnableWord.getLsbD 4 = s.intEnable.upresume) ∧
    ∀ i : EpIx,
      (s.intPendingWord.getLsbD (16 + i.val) = true ↔
        s.validEp i = true ∧
          (((s.ep i).sta.txdone = true ∧ (s.ep i).ctl.txdoneIe = true) ∨
            ((s.ep i).sta.rxrdy = true ∧ (s.ep i).ctl.rxrdyIe = true) ∨
            ((s.ep i).sta.stallsent = true ∧ (s.ep i).ctl.stallsentIe = true) ∨
            ((s.ep i).sta.setup = true ∧ (s.ep i).ctl.setupIe = true))) ∧
      s.intPendingWord.getLsbD (32 + i.val) = s.intPending.dma.getLsbD i.val ∧
      s.intEnableWord.getLsbD (16 + i.val) = (s.ep i).irqEn ∧
      s.intEnableWord.getLsbD (32 + i.val) = s.intEnable.dma.getLsbD i.val

/-! ### Initialisation -/

/-- Engine initialisation leaves every endpoint disabled, unreserved but for EP0, with an empty queue and all its
flags, status and control clear; the device suspended over `Powered`, unbound, detached, at address 0; every DMA
register 0; the interrupt enables of R342; and every descriptor free (R22, R33, R35, R40 to R44, R46, R47, R340). That
reset takes the spec's parameter set P, the first clause, is the model's choice (assumption 3); the rest holds for every
parameter set. -/
def Obligations.InitialisationValues : Prop :=
  State.reset = State.init Params.nominal ∧ ∀ p : Params,
    let s := State.init p
    (∀ i : EpIx, (s.ep i).reserved = decide (i = 0) ∧ (s.ep i).bank = 0 ∧ (s.ep i).state = .disabled ∧
      (s.ep i).stalled = false ∧ (s.ep i).halted = false ∧ (s.ep i).txnullpkt = false ∧ (s.ep i).rxpend = false ∧
      (s.ep i).queue = [] ∧ (s.ep i).irqEn = false ∧ (s.ep i).dmaBusy = false ∧ (s.ep i).sta.word = 0 ∧
      (s.ep i).ctl.word = 0 ∧ (s.ep i).chan.addr = 0 ∧ (s.ep i).chan.count = 0 ∧ (s.ep i).chan.ctlWord = 0 ∧
      (s.ep i).chan.staWord = 0) ∧
    (s.ep 0).dir = .bidir ∧ (s.ep 0).type = .control ∧
    s.dev.state = .suspended ∧ s.dev.prevstate = .powered ∧ s.dev.addr = 0 ∧ s.dev.pendingAddr = 0 ∧
    s.dev.selfpowered = false ∧ s.dev.rwake = false ∧ s.dev.rxpending = false ∧ s.dev.driver = nullRef ∧
    s.dev.scratchCount = 0 ∧ s.dev.pullup = false ∧ s.dev.clkGated = false ∧
    s.intPendingWord = 0 ∧ s.intEnableWord = (if p.sofIrqEn then 0xFFFF0000001F else 0xFFFF0000001D) ∧
    s.devAddr.word = 0 ∧ s.devCtl.word = 0 ∧ s.reqs = [] ∧ s.descOwner = List.replicate p.numDmaDesc none

/-! ### Requests -/

/-- ALLOCATE_REQUEST: a successful draw makes a record with the values of R30 and returns its handle, a failing one
returns null and makes none. FREE_REQUEST: null is refused, a request of the engine is a fault, any other ceases to exist
and nothing else changes. The class driver sets the fields of its own requests; of one of the engine it is a fault. A
request belongs to the engine while `owner` says so and on until its completion callback is invoked (R30, R31, R126,
R127, R130, R366; assumption 17). How handles are numbered, that a draw fails when none is left, and that a handle of no
record is refused like null, or names nothing to set, are assumptions 8 and 22. -/
def Obligations.RequestRecordsAreMadeAndDestroyed : Prop :=
  ∀ (i : EpIx) (h : Ref) (s : State),
    let owned := (s.req h).owner = .engine ∨ ∃ k r, .done k h r ∈ s.cbList ∨ .pending (.done k h r) ∈ s.stack
    (s.reqPool.headD true = true → s.nextReq ≠ nullRef →
      exec .allocateRequest s = .next { s with
        reqPool := s.reqPool.tail, reqs := (s.nextReq, ⟨0, 0, 0, 0, false, none, nullRef, false, .driver⟩) :: s.reqs,
        nextReq := s.nextReq + 1, ret := .request s.nextReq }) ∧
    (s.reqPool.headD true = false ∨ s.nextReq = nullRef →
      exec .allocateRequest s = .next { s with reqPool := s.reqPool.tail, ret := .request nullRef }) ∧
    (h = nullRef ∨ s.hasReq h = false →
      exec (.freeRequest i h) s = .next { s with ret := .result .invalidArgs }) ∧
    (h ≠ nullRef → s.hasReq h = true → owned → exec (.freeRequest i h) s = .fault .freeOfQueuedRequest) ∧
    (h ≠ nullRef → s.hasReq h = true → ¬owned →
      ∃ t, exec (.freeRequest i h) s = .next t ∧ t = { s with reqs := t.reqs, ret := .result .ok } ∧
        t.hasReq h = false ∧ ∀ k, k ≠ h → t.hasReq k = s.hasReq k ∧ t.req k = s.req k) ∧
    (∀ buf len nullpkt cb rest, s.stack = [] ∨ (∃ c below, s.stack = .active c :: below) →
      s.input = .setReq h buf len nullpkt cb :: rest →
      (s.hasReq h = true → owned → step s = .fault .ownedRequestTouched) ∧
      (s.hasReq h = true → ¬owned → ∃ t, step s = .next t ∧ t = { s with reqs := t.reqs, input := rest } ∧
        t.req h = { s.req h with buf := buf, len := len, nullpkt := nullpkt, callback := cb } ∧
        ∀ k, k ≠ h → t.req k = s.req k) ∧
      (s.hasReq h = false → step s = .next { s with input := rest }))

/-- SUBMIT checks the endpoint and the request first, then the binding and the endpoint's state; a request is the
engine's until its completion callback is invoked (R31, R366; assumption 17). CONFIGURE_ENDPOINT checks the endpoint,
then for a transfer in flight, then the descriptor, then the geometry. The first check that fails gives the result, and
nothing but the result is written (R120, R130, R317). That a handle of no record answers `InvalidArgs` like null is the
model's choice (assumption 8). -/
def Obligations.SubmitAndConfigureCheckInOrder : Prop :=
  (∀ (i : EpIx) (h : Ref) (s : State),
    let badEp := s.validEp i = false ∨ (s.ep i).reserved = false
    let badReq := h = nullRef ∨ s.hasReq h = false ∨ (s.req h).callback = nullRef ∨
      ((s.req h).buf = 0 ∧ (s.req h).len ≠ 0) ∨ (s.req h).owner = .engine ∨
      ∃ k r, .done k h r ∈ s.cbList ∨ .pending (.done k h r) ∈ s.stack
    (badEp ∨ badReq → exec (.submit i h) s = .next { s with ret := .result .invalidArgs }) ∧
    (¬badEp → ¬badReq → s.dev.driver = nullRef ∨ (s.ep i).state = .disabled →
      exec (.submit i h) s = .next { s with ret := .result .shutdown })) ∧
  ∀ (i : EpIx) (d : EpDesc) (s : State),
    let badEp := s.validEp i = false ∨ (s.ep i).reserved = false
    let busy := (s.ep i).state ≠ .disabled ∧ (s.ep i).state ≠ .stalled ∧ (s.ep i).state ≠ .idle
    let badDesc := d.mps = 0 ∨ ¬(i = 0 ↔ descType d = .control)
    (badEp → exec (.configureEndpoint i d) s = .next { s with ret := .result .invalidArgs }) ∧
    (¬badEp → busy → exec (.configureEndpoint i d) s = .next { s with ret := .result .busy }) ∧
    (¬badEp → ¬busy → badDesc → exec (.configureEndpoint i d) s = .next { s with ret := .result .invalidArgs }) ∧
    (¬badEp → ¬busy → ¬badDesc → s.geometryOk i (descType d) d.mps (s.cfg.epBanks.get i) = false →
      exec (.configureEndpoint i d) s = .next { s with ret := .result .configError })

/-- An accepted SUBMIT answers `Ok` whatever the endpoint is doing. On an `Idle` endpoint it touches only that endpoint
and the requests queued on it, starts the queue, and stores at most a packet held for it; on any other it only appends
the request (R61, R130, R176; what starting does: `SubmitStartsAWrite`, `SubmitStartsARead`, `SubmitStartsADmaSlice`). -/
def Obligations.SubmitAcceptedAnswersOk : Prop :=
  ∀ (i : EpIx) (h : Ref) (s : State), s.accepts i h →
    let q := (s.modReq h submitted).enqueue i h
    ∃ t, exec (.submit i h) s = .next t ∧ t.ret = .result .ok ∧
      ((s.ep i).state = .idle → t = { q.startTransfer i with ret := .result .ok } ∧
        EpFrame i ((s.ep i).queue ++ [h]) s t ∧ (s.ep i).Kept (t.ep i) ∧ (t.ep i).settled ∧
        SameMemoryOutside (q.heldStore i).1 (q.heldStore i).2 s t) ∧
      ((s.ep i).state ≠ .idle →
        t = { s with eps := t.eps, reqs := t.reqs, ret := .result .ok } ∧
        t.ep i = { s.ep i with queue := (s.ep i).queue ++ [h] } ∧ (∀ j, j ≠ i → t.ep j = s.ep j) ∧
        t.req h = submitted (s.req h) ∧ ∀ k, k ≠ h → t.req k = s.req k)

/-- SUBMIT of a write on an `Idle` endpoint hands the first packet to the hardware: the first min(mps, len) bytes
of the buffer, in order, a zero-length packet for a zero-length write. So does any start of an `Idle` endpoint's queue
whose head is a fresh write, the requests behind it staying queued (R11, R63, R130, R176, R180, R181, R182, R183). The
bank being filled is empty between steps (`EndpointFlagsFollowTheState`); that each packet has a bank of its own is
assumption 18. -/
def Obligations.SubmitStartsAWrite : Prop :=
  ∀ (i : EpIx) (h : Ref) (s : State), (s.ep i).state = .idle → s.hasDma i = false → s.isIn i = true →
    let q := s.req h
    let n := if (s.ep i).mps ≤ q.len then (s.ep i).mps else q.len
    let sent := fun queue : List Ref => { s.ep i with
      state := .sending
      queue := queue
      txnullpkt := decide (n = q.len) && q.nullpkt && decide (n = (s.ep i).mps)
      bank := ((s.ep i).bank + 1) % (s.ep i).banks
      ctl := { (s.ep i).ctl with txpktrdy := true }
      fifo := { (s.ep i).fifo with
        fill := []
        tx := (s.ep i).fifo.tx ++ [(s.ep i).fifo.fill ++ readBytes s.mem q.buf n.toNat] } }
    (s.accepts i h → (s.ep i).queue = [] →
      ∃ t, exec (.submit i h) s = .next t ∧ t = { s with eps := t.eps, reqs := t.reqs, ret := .result .ok } ∧
        t.ep i = sent [h] ∧ (∀ j, j ≠ i → t.ep j = s.ep j) ∧
        t.req h = { q with xfrd := 0, inflight := n, started := true, result := none, owner := .engine } ∧
        ∀ k, k ≠ h → t.req k = s.req k) ∧
    (∀ more, (s.ep i).queue = h :: more → s.hasReq h = true → q.started = false → q.xfrd = 0 → q.inflight = 0 →
      let t := s.startTransfer i
      t = { s with eps := t.eps, reqs := t.reqs } ∧ t.ep i = sent (h :: more) ∧ (∀ j, j ≠ i → t.ep j = s.ep j) ∧
      t.req h = { q with inflight := n, started := true } ∧ ∀ k, k ≠ h → t.req k = s.req k)

/-- SUBMIT of a read on an `Idle` endpoint without DMA. A zero-length read completes at once. With no packet held the
endpoint waits for one. A held packet is consumed in the same step: min(BYTECNT, len) bytes of the bank land at the
buffer, the bank is released, `RXRDY_IE` is set again, and the read completes if its buffer is full or the packet was
short. Any start of an `Idle` endpoint's queue whose head is a fresh read does the same, and with the head completed
starts the next (R130, R176, R189, R190, R191, R192, R193). Bytes past the end of the bank are free (assumption 1), and
`dev.rxpending` is kept as the OR of the flags (R35, assumption 9). -/
def Obligations.SubmitStartsARead : Prop :=
  ∀ (i : EpIx) (h : Ref) (s : State), (s.ep i).state = .idle → s.hasDma i = false → s.isIn i = false →
    let q := s.req h
    let e := s.ep i
    let n := if e.sta.bytecnt ≤ q.len then e.sta.bytecnt else q.len
    let ends := decide (n = q.len) || decide (e.sta.bytecnt < e.mps)
    let others := fun t : State => (∀ j, j ≠ i → t.ep j = s.ep j) ∧ ∀ k, k ≠ h → t.req k = s.req k
    let stored := fun (t : State) (queue : List Ref) =>
      t = { s with
        reqs := t.reqs, eps := t.eps, mem := t.mem, ret := t.ret, draws := t.draws
        cbList := s.cbList ++ if ends then [.done i h .ok] else []
        dev := { s.dev with rxpending := s.epList.any fun k => decide (k ≠ i) && (s.ep k).rxpend } } ∧
      t.ep i = { e with
        state := if ends then .idle else .receiving
        queue := queue
        rxpend := false
        bank := (e.bank + 1) % e.banks
        sta := { e.sta with rxrdy := false }
        ctl := { e.ctl with rxrdyIe := true }
        fifo := { e.fifo with rx := [] } } ∧
      SameMemoryOutside q.buf n.toNat s t ∧
      (Memory.wf s.mem = true → n.toNat ≤ e.fifo.rx.length →
        readBytes t.mem q.buf n.toNat = e.fifo.rx.take n.toNat)
    (s.accepts i h → e.queue = [] →
      ∃ t, exec (.submit i h) s = .next t ∧ others t ∧
        (q.len = 0 →
          t = { s with reqs := t.reqs, eps := t.eps, cbList := s.cbList ++ [.done i h .ok], ret := .result .ok } ∧
          t.ep i = e ∧ t.req h = completed .ok (submitted q)) ∧
        (q.len ≠ 0 → e.rxpend = false →
          t = { s with reqs := t.reqs, eps := t.eps, ret := .result .ok } ∧
          t.ep i = { e with state := .receiving, queue := [h] } ∧ t.req h = submitted q) ∧
        (q.len ≠ 0 → e.rxpend = true →
          stored t (if ends then [] else [h]) ∧ t.ret = .result .ok ∧
          t.req h = { q with
            xfrd := n
            inflight := 0
            started := false
            result := if ends then some .ok else none
            owner := if ends then .driver else .engine })) ∧
    (∀ more, e.queue = h :: more → s.hasReq h = true → q.xfrd = 0 →
      let t := s.startTransfer i
      (q.len = 0 → ∃ u, t = u.startTransfer i ∧ others u ∧
        u = { s with reqs := u.reqs, eps := u.eps, cbList := s.cbList ++ [.done i h .ok] } ∧
        u.ep i = { e with queue := more } ∧ u.req h = completed .ok q) ∧
      (q.len ≠ 0 → e.rxpend = false → t = { s with eps := t.eps } ∧ t.ep i = { e with state := .receiving } ∧ others t) ∧
      (q.len ≠ 0 → e.rxpend = true → ∃ u, t = (if ends then u.startTransfer i else u) ∧ others u ∧
        stored u (if ends then more else h :: more) ∧ u.ret = s.ret ∧
        u.req h = if ends then completed .ok { q with xfrd := n } else { q with xfrd := n }))

/-- SUBMIT on an `Idle` DMA endpoint programs one slice: min(len, DMA_FIFO_CAP) bytes at the buffer, the channel and
its interrupt enabled, and for an IN endpoint the cache over exactly that slice flushed first. A zero-length write
sends one zero-length packet with `TXDONE_IE` set, a zero-length read completes at once. Any start of an `Idle` DMA
endpoint's queue whose head is fresh does the same, and with the head completed starts the next (R66, R176, R200,
R203). That the packet has a transmit bank of its own is assumption 18. -/
def Obligations.SubmitStartsADmaSlice : Prop :=
  ∀ (i : EpIx) (h : Ref) (s : State), (s.ep i).state = .idle → s.hasDma i = true →
    let q := s.req h
    let e := s.ep i
    let n := if q.len ≤ s.cfg.dmaFifoCap then q.len else s.cfg.dmaFifoCap
    let others := fun t : State => (∀ j, j ≠ i → t.ep j = s.ep j) ∧ ∀ k, k ≠ h → t.req k = s.req k
    let slice := fun queue : List Ref => { e with
      state := if s.isIn i then .sending else .receiving
      queue := queue
      dmaBusy := true
      chan := { e.chan with addr := q.buf, count := n, en := true, ie := true, running := true } }
    let zlp := fun queue : List Ref => { e with
      state := .sending
      queue := queue
      bank := (e.bank + 1) % e.banks
      ctl := { e.ctl with txpktrdy := true, txdoneIe := true }
      fifo := { e.fifo with fill := [], tx := e.fifo.tx ++ [e.fifo.fill] } }
    let flushed := s.log ++ if s.isIn i then [.cacheFlush q.buf n] else []
    (s.accepts i h → e.queue = [] →
      ∃ t, exec (.submit i h) s = .next t ∧ others t ∧
        (q.len ≠ 0 →
          t = { s with eps := t.eps, reqs := t.reqs, ret := .result .ok, log := flushed } ∧ t.ep i = slice [h] ∧
          t.req h = { q with xfrd := 0, inflight := n, started := true, result := none, owner := .engine }) ∧
        (q.len = 0 → s.isIn i = true →
          t = { s with eps := t.eps, reqs := t.reqs, ret := .result .ok } ∧ t.ep i = zlp [h] ∧
          t.req h = { q with xfrd := 0, inflight := 0, started := true, result := none, owner := .engine }) ∧
        (q.len = 0 → s.isIn i = false →
          t = { s with
            eps := t.eps, reqs := t.reqs, ret := .result .ok, cbList := s.cbList ++ [.done i h .ok] } ∧
          t.ep i = e ∧ t.req h = completed .ok (submitted q))) ∧
    (∀ more, e.queue = h :: more → s.hasReq h = true → q.xfrd = 0 →
      let t := s.startTransfer i
      (q.len ≠ 0 →
        t = { s with eps := t.eps, reqs := t.reqs, log := flushed } ∧ others t ∧ t.ep i = slice (h :: more) ∧
        t.req h = { q with inflight := n, started := true }) ∧
      (q.len = 0 → s.isIn i = true →
        t = { s with eps := t.eps, reqs := t.reqs } ∧ others t ∧ t.ep i = zlp (h :: more) ∧
        t.req h = { q with inflight := 0, started := true }) ∧
      (q.len = 0 → s.isIn i = false → ∃ u, t = u.startTransfer i ∧ others u ∧
        u = { s with reqs := u.reqs, eps := u.eps, cbList := s.cbList ++ [.done i h .ok] } ∧
        u.ep i = { e with queue := more } ∧ u.req h = completed .ok q))

/-! ### Cancelling, disabling, stalling -/

/-- CANCEL completes the whole queue with `Shutdown`, in order, leaves a transfer `Idle` and every other state as it
was, withdraws a packet already handed over, and enables the endpoint's interrupts again unless it is disabled
(R119, R136, R172, R173, R207). That the request operand is not looked at, so that a null or stale handle answers `Ok`
too, is assumption 27; that the transmit banks are emptied, assumption 18; what is left of the received bytes of a
stopped slice, assumption 19. -/
def Obligations.CancelDrainsTheQueue : Prop :=
  ∀ (i : EpIx) (h : Ref) (s : State),
    (s.validEp i = false → exec (.cancel i h) s = .next { s with ret := .result .invalidArgs }) ∧
    (s.validEp i = true →
      let e := s.ep i
      let on := decide (e.state ≠ .disabled)
      ∃ t, exec (.cancel i h) s = .next t ∧ t.ret = .result .ok ∧ EpFrame i e.queue s t ∧
        State.drainedTo i .shutdown s t ∧ t.dev = s.dev ∧ t.log = s.log ∧
        t.ep i = { e with
          state := if s.moving i then .idle else e.state
          txnullpkt := false
          queue := []
          irqEn := on
          dmaBusy := false
          ctl := { e.ctl with
            txpktrdy := false
            txdoneIe := on && !s.hasDma i && s.isIn i
            rxrdyIe := on && !s.hasDma i && (decide (i = 0) || !s.isIn i)
            stallsentIe := on
            setupIe := on && decide (i = 0) }
          chan := e.stoppedChan (on && s.hasDma i)
          fifo := { e.fifo with fill := [], tx := [], rx := (t.ep i).fifo.rx } } ∧
        RxLeft (s.openSlice i) e.fifo.rx (t.ep i).fifo.rx ∧
        SameMemoryOutside e.chan.addr (s.openSlice i) s t)

/-- DISABLE_ENDPOINT completes the whole queue with `Shutdown`, in order, and leaves the endpoint `Disabled`, masked,
with its flags clear, any state before it. FREE_ENDPOINT is DISABLE_ENDPOINT, its `Shutdown` callbacks included, and
then gives the reservation up; EP0 and an unreserved endpoint are refused (R124, R148). `dev.rxpending` stays the OR of
the other endpoints' flags (R35, assumption 9), the transmit banks are emptied (assumption 18), and what is left of the
received bytes of a stopped slice is assumption 19. -/
def Obligations.DisableShutsTheEndpointDown : Prop :=
  ∀ (i : EpIx) (s : State),
    (s.validEp i = false → exec (.disableEndpoint i) s = .next { s with ret := .result .invalidArgs }) ∧
    (s.validEp i = true →
      let e := s.ep i
      ∃ t, exec (.disableEndpoint i) s = .next t ∧ t.ret = .result .ok ∧ EpFrame i e.queue s t ∧
        State.drainedTo i .shutdown s t ∧ t.log = s.log ∧
        t.dev = { s.dev with
          rxpending := s.epList.any fun k => decide (k ≠ i) && (s.ep k).rxpend
          scratchCount := if i = 0 then 0 else s.dev.scratchCount } ∧
        t.ep i = { e with
          state := .disabled
          stalled := false
          halted := false
          txnullpkt := false
          rxpend := false
          queue := []
          irqEn := false
          dmaBusy := false
          ctl := ⟨false, false, false, false, false, false, false, e.ctl.mps⟩
          chan := e.stoppedChan false
          fifo := { e.fifo with fill := [], tx := [], rx := (t.ep i).fifo.rx } } ∧
        RxLeft (s.openSlice i) e.fifo.rx (t.ep i).fifo.rx ∧
        SameMemoryOutside e.chan.addr (s.openSlice i) s t) ∧
    (i = 0 ∨ s.validEp i = false ∨ (s.ep i).reserved = false →
      exec (.freeEndpoint i) s = .next { s with ret := .result .invalidArgs }) ∧
    (i ≠ 0 → s.validEp i = true → (s.ep i).reserved = true →
      ∃ t u, exec (.disableEndpoint i) s = .next t ∧ exec (.freeEndpoint i) s = .next u ∧
        u = { t with eps := u.eps } ∧ u.ep i = { t.ep i with reserved := false } ∧
        ∀ j, j ≠ i → u.ep j = s.ep j)

/-- STALL does nothing to a disabled or stalled endpoint; from any other state it leaves the endpoint stalled, its
packet withdrawn, and completes with `IoError` the head of a transfer only, keeping the head's count of bytes and the
requests behind it (R140, R207). The transmit banks are emptied (assumption 18); what is left of the received bytes of
a stopped slice is assumption 19. -/
def Obligations.StallAbortsOnlyTheHead : Prop :=
  ∀ (i : EpIx) (s : State),
    (s.validEp i = false → exec (.stall i) s = .next { s with ret := .result .invalidArgs }) ∧
    (s.validEp i = true → (s.ep i).state = .disabled ∨ (s.ep i).state = .stalled →
      exec (.stall i) s = .next { s with ret := .result .ok }) ∧
    (s.validEp i = true → (s.ep i).state ≠ .disabled → (s.ep i).state ≠ .stalled →
      let e := s.ep i
      let stop := s.moving i && e.dmaBusy
      ∃ t, exec (.stall i) s = .next t ∧ t.ret = .result .ok ∧ EpFrame i e.queue s t ∧ t.log = s.log ∧
        t.dev.rxpending = s.dev.rxpending ∧ (i = 0 → t.dev.scratchCount = 0 ∧ t.dev.pendingAddr = 0) ∧
        t.ep i = { e with
          state := .stalled
          stalled := true
          txnullpkt := false
          queue := if s.moving i then e.queue.tail else e.queue
          dmaBusy := if s.moving i then false else e.dmaBusy
          ctl := { e.ctl with txpktrdy := false, forcestall := true }
          chan := if stop then { e.chan with
              en := false, ie := false, eob := false, eoc := false, err := false, running := false }
            else e.chan
          fifo := { e.fifo with fill := [], tx := [], rx := (t.ep i).fifo.rx } } ∧
        RxLeft (if s.moving i then s.openSlice i else 0) e.fifo.rx (t.ep i).fifo.rx ∧
        t.cbList = s.cbList ++ (if s.moving i then (e.queue.take 1).map (fun h => .done i h .ioError) else []) ∧
        (∀ h rest, e.queue = h :: rest →
          (s.hasReq h = true → t.req h = if s.moving i then completed .ioError (s.req h) else s.req h) ∧
          ∀ k, k ≠ h → t.req k = s.req k) ∧
        SameMemoryOutside e.chan.addr (if s.moving i then s.openSlice i else 0) s t)

/-- RESUME_STALL does nothing unless the endpoint is stalled; it then clears the stall and the halt, leaves the endpoint
`Idle` with its queue as it was, and starts that queue in the same step: nothing happens with no request, and with one
the endpoint ends in a transfer or with its queue run empty, having stored at most a packet held for it (R141, R174, R176;
what starting does: `SubmitStartsAWrite`, `SubmitStartsARead`, `SubmitStartsADmaSlice`). -/
def Obligations.ResumeStallRestartsTheQueue : Prop :=
  ∀ (i : EpIx) (s : State),
    (s.validEp i = false → exec (.resumeStall i) s = .next { s with ret := .result .invalidArgs }) ∧
    (s.validEp i = true → (s.ep i).state ≠ .stalled → exec (.resumeStall i) s = .next { s with ret := .result .ok }) ∧
    (s.validEp i = true → (s.ep i).state = .stalled →
      let e := { s.ep i with
        state := .idle, stalled := false, halted := false, ctl := { (s.ep i).ctl with forcestall := false } }
      ∃ t, exec (.resumeStall i) s = .next t ∧
        t = { (s.modEp i fun _ => e).startTransfer i with ret := .result .ok } ∧ EpFrame i (s.ep i).queue s t ∧
        e.Kept (t.ep i) ∧ (t.ep i).settled ∧
        ((s.ep i).queue = [] → t.ep i = e ∧ t = { s with eps := t.eps, ret := .result .ok }) ∧
        SameMemoryOutside (s.heldStore i).1 (s.heldStore i).2 s t)

/-! ### Configuring and reserving endpoints -/

/-- CONFIGURE_ENDPOINT that passes its checks programs the endpoint from the descriptor, clears a stall, enables its
interrupts, leaves it `Idle` or, with requests queued, starts them, and stores no byte of memory (R90, R119, R120; what
starting does: `SubmitStartsAWrite`, `SubmitStartsARead`, `SubmitStartsADmaSlice`). That `dev.rxpending` stays the OR of
the other endpoints' flags is R35 and assumption 9. -/
def Obligations.ConfigureProgramsTheEndpoint : Prop :=
  ∀ (i : EpIx) (d : EpDesc) (s : State),
    s.validEp i = true → (s.ep i).reserved = true →
    (s.ep i).state = .disabled ∨ (s.ep i).state = .stalled ∨ (s.ep i).state = .idle →
    d.mps ≠ 0 → (i = 0 ↔ descType d = .control) →
    s.geometryOk i (descType d) d.mps (s.cfg.epBanks.get i) = true →
    let dirIn := d.epaddr.getLsbD 7
    let e := { s.ep i with
      dir := if i = 0 then .bidir else if dirIn then .dirIn else .dirOut
      type := epTypeOfBits (d.attrs.extractLsb' 0 2)
      mps := d.mps
      banks := s.cfg.epBanks.get i
      bank := 0
      state := .idle
      stalled := false
      halted := false
      txnullpkt := false
      rxpend := false
      irqEn := true
      ctl := { (s.ep i).ctl with
        enable := true, forcestall := false, mps := d.mps, stallsentIe := true, setupIe := decide (i = 0)
        txdoneIe := !s.hasDma i && (decide (i = 0) || dirIn)
        rxrdyIe := !s.hasDma i && (decide (i = 0) || !dirIn) }
      chan := { (s.ep i).chan with ie := s.hasDma i || (s.ep i).chan.ie } }
    let others := s.epList.any fun k => decide (k ≠ i) && (s.ep k).rxpend
    let programmed := { s.modEp i fun _ => e with dev := { s.dev with rxpending := others } }
    ∃ t, exec (.configureEndpoint i d) s = .next t ∧
      t = { programmed.startTransfer i with ret := .result .ok } ∧ EpFrame i (s.ep i).queue s t ∧
      SameMemory s t ∧ e.Kept (t.ep i) ∧ (t.ep i).settled ∧
      ((s.ep i).queue = [] → t.ep i = e ∧
        t = { s with eps := t.eps, ret := .result .ok, dev := { s.dev with rxpending := others } })

/-- ALLOCATE_ENDPOINT returns the endpoint asked for, or for logical number 0 the lowest-numbered one, that exists,
is not EP0, is not reserved and supports the type, and reserves it with the direction and type; with none it returns
null and reserves none (R146). -/
def Obligations.AllocateEndpointTakesLowestFree : Prop :=
  ∀ (n : EpIx) (dirIn : Bool) (t : EpType) (s : State),
    let free := fun k : EpIx => k ≠ 0 ∧ (n = 0 ∨ k = n) ∧ s.validEp k = true ∧ (s.ep k).reserved = false ∧
      s.epSupports k t = true
    (∀ k, free k → (∀ j, j < k → ¬free j) →
      ∃ u, exec (.allocateEndpoint n dirIn t) s = .next u ∧
        u = { s with eps := u.eps, ret := .endpoint (some k) } ∧
        u.ep k = { s.ep k with reserved := true, dir := if dirIn then .dirIn else .dirOut, type := t } ∧
        ∀ j, j ≠ k → u.ep j = s.ep j) ∧
    ((∀ k, ¬free k) → exec (.allocateEndpoint n dirIn t) s = .next { s with ret := .endpoint none })

/-- A reservation is given up only by FREE_ENDPOINT of that endpoint: no other instruction and no interrupt handler
clears it, nor does any step that does not run that command, the continuation after `on_setup` among them; so
ALLOCATE_ENDPOINT, which takes only unreserved endpoints, never returns it again before (R146, R148, R237, R280). -/
def Obligations.ReservationsAreKept : Prop :=
  ∀ (e : EpIx) (s : State), (s.ep e).reserved = true →
    (∀ (i : Instr) (t : State), i ≠ .freeEndpoint e → exec i s = .next t → (t.ep e).reserved = true) ∧
    (∀ b : Source, ((s.handle b).ep e).reserved = true) ∧
    ∀ t : State, (∀ bytes rest more, s.input = .cmd bytes :: rest → decode .command bytes ≠ .ok (.freeEndpoint e, more)) →
      step s = .next t → (t.ep e).reserved = true

/-! ### Device operations -/

/-- GET_FRAME_NUMBER, op 0x0A, returns `FNUM[10:0]` zero-extended to 16 bits and writes no other state; after SOF(0x7FF) it
returns 0x07FF (R152). -/
def Obligations.GetFrameNumberReturnsFnum : Prop :=
  decodeCommand 0x0000000A 0 = .getFrameNumber ∧ ∀ s : State,
    exec .getFrameNumber s = .next { s with ret := .frame (0#5 ++ s.fnum) } ∧
    ∀ t, exec (.busSof 0x7FF) s = .next t → exec .getFrameNumber t = .next { t with ret := .frame 0x07FF }

/-- WAKEUP resumes a suspended device, telling a bound class driver, requests the signalling and answers `Ok`; the
remote-wakeup bit stays set unless the bus clears it within the wait (R154, R286). How the bus acts within the wait is
assumption 20. -/
def Obligations.WakeupResumesAndSignals : Prop :=
  ∀ s : State, 1 ≤ s.cfg.wakeupSpinBound →
    let asleep := decide (s.dev.state = .suspended)
    ∃ t, exec .wakeup s = .next t ∧
      t = { s with
        input := t.input, ret := .result .ok
        dev := { s.dev with
          state := if asleep then s.dev.prevstate else s.dev.state
          clkGated := if asleep then false else s.dev.clkGated }
        cbList := s.cbList ++ if asleep && decide (s.dev.driver ≠ nullRef) then [.onResume] else []
        devCtl := { s.devCtl with
          rwake := t.devCtl.rwake
          clkgate := if asleep then false else s.devCtl.clkgate } } ∧
      ((∀ args rest, s.input ≠ .stim true (0x8C :: args) :: rest) → t.devCtl.rwake = true ∧ t.input = s.input) ∧
      (∀ args rest, s.input = .stim true (0x8C :: args) :: rest → t.devCtl.rwake = false ∧ t.input = rest)

/-- SET_SELF_POWERED, SET_PULLUP and BIND write exactly their field: `selfpowered`; the pull-up with its mirror and,
detaching a device at Powered or higher, the state `Powered`; the driver, if one is given and none is bound (R156,
R158, R160). -/
def Obligations.DeviceSettersWriteOneField : Prop :=
  ∀ (b : Bool) (d : Ref) (s : State),
    exec (.setSelfPowered b) s = .next { s with dev := { s.dev with selfpowered := b }, ret := .result .ok } ∧
    exec (.setPullup b) s = .next { s with
      dev := { s.dev with
        pullup := b
        state := if b = false ∧ s.dev.state ≠ .suspended ∧ s.dev.state ≠ .attached then .powered else s.dev.state }
      devCtl := { s.devCtl with pullup := b }
      ret := .result .ok } ∧
    exec (.bind d) s = (if d = nullRef ∨ s.dev.driver ≠ nullRef then .next { s with ret := .result .invalidArgs }
      else .next { s with dev := { s.dev with driver := d }, ret := .result .ok })

/-- UNBIND disables every endpoint but EP0 and empties EP0's queue, completing every request with `Shutdown` by
increasing endpoint number, keeps the reservations and forgets the driver; with none bound it is refused (R162). That
the test of EP0's state governs both actions after it is assumption 10. -/
def Obligations.UnbindShutsEverythingDown : Prop :=
  ∀ s : State, 1 ≤ s.cfg.numEp →
    (s.dev.driver = nullRef → exec .unbind s = .next { s with ret := .result .invalidArgs }) ∧
    (s.dev.driver ≠ nullRef →
      ∃ t, exec .unbind s = .next t ∧ t.ret = .result .ok ∧ t.dev.driver = nullRef ∧
        (∀ i : EpIx, (t.ep i).reserved = (s.ep i).reserved) ∧
        (∀ i : EpIx, i ≠ 0 → s.validEp i = true →
          (t.ep i).state = .disabled ∧ (t.ep i).queue = [] ∧ (t.ep i).irqEn = false ∧ (t.ep i).ctl.enable = false) ∧
        (∀ i : EpIx, s.validEp i = false → t.ep i = s.ep i) ∧
        (t.ep 0).queue = [] ∧ (t.ep 0).state = (if s.moving 0 then .idle else (s.ep 0).state) ∧
        (t.ep 0).irqEn = decide ((s.ep 0).state ≠ .disabled) ∧
        t.cbList = s.cbList ++ (s.epList.filter (fun i => decide (i ≠ 0))).flatMap
            (fun i => (s.ep i).queue.map (fun h => .done i h .shutdown)) ++
          (s.ep 0).queue.map (fun h => .done 0 h .shutdown) ∧
        t = { s with
          eps := t.eps, reqs := t.reqs, cbList := t.cbList, mem := t.mem, draws := t.draws, ret := t.ret
          intPending := { s.intPending with dma := t.intPending.dma }
          dev := { s.dev with driver := nullRef, rxpending := t.dev.rxpending } } ∧
        (∀ h, (∀ i, s.validEp i = true → h ∉ (s.ep i).queue) → t.req h = s.req h) ∧
        (∀ i h, s.validEp i = true → h ∈ (s.ep i).queue → s.hasReq h = true →
          t.req h = completed .shutdown (s.req h)) ∧
        (∀ a : Nat, (∀ i : EpIx, i ≠ 0 → s.validEp i = true → ∀ k, k < s.openSlice i →
            a ≠ ((s.ep i).chan.addr + BitVec.ofNat 32 k).toNat) → readByte t.mem a = readByte s.mem a))

/-! ### Bus and DMA stimuli -/

/-- SUSPEND, RESUME, SOF, UPRESUME and RWAKE_DONE write exactly their status: a pending bit, for SOF also `FNUM` with
bits 10:0 of the frame number, and for RWAKE_DONE the remote-wakeup bit. BUSRESET sets its pending bit, clears the
status bits and `TXPKTRDY` of every endpoint and drops the packets in their banks. No engine state changes (R97,
R105). -/
def Obligations.BusEventsWriteOnlyTheirStatus : Prop :=
  ∀ (f : BitVec 16) (s : State),
    exec .busSuspend s = .next { s with intPending := { s.intPending with suspend := true } } ∧
    exec .busResume s = .next { s with intPending := { s.intPending with resume := true } } ∧
    exec (.busSof f) s =
      .next { s with fnum := f.extractLsb' 0 11, intPending := { s.intPending with sof := true } } ∧
    exec .busUpresume s = .next { s with intPending := { s.intPending with upresume := true } } ∧
    exec .busRwakeDone s = .next { s with devCtl := { s.devCtl with rwake := false } } ∧
    ∃ t, exec .busBusreset s = .next t ∧
      t = { s with eps := t.eps, intPending := { s.intPending with busreset := true } } ∧
      ∀ i : EpIx, t.ep i = if s.validEp i then { s.ep i with
          sta := ⟨false, false, false, false, (s.ep i).sta.bytecnt⟩
          ctl := { (s.ep i).ctl with txpktrdy := false }
          fifo := ⟨[], [], [], []⟩ }
        else s.ep i

/-- SETUP, RXPKT, TXDONE and STALLSENT set the status of their endpoint, put the bytes in its bank or take the sent
packet out of it, and run no engine code (R97). RXPKT with more bytes than the endpoint's max-packet size is refused
(I20); an endpoint never configured has none, which the model tells by the size 0 (assumption 13). While a packet is held
the hardware keeps it and takes no other: RXPKT leaves everything as it is (R187). An endpoint that does not exist is left
alone (assumption 11). That a packet not held replaces the bank's bytes, and on a DMA endpoint follows those
received before, is assumption 12; that TXDONE shows the oldest bank handed over, and none otherwise, assumption 18. -/
def Obligations.EndpointStimuliWriteStatusAndBank : Prop :=
  ∀ (i : EpIx) (p : SetupPacket) (bytes : List Byte) (s : State),
    let e := s.ep i
    let sized := e.ctl.enable = true ∨ e.mps ≠ 0
    let held := e.rxpend = true ∧ e.sta.rxrdy = true
    let only := fun (t : State) (e' : Endpoint) =>
      t = { s with eps := t.eps, log := t.log } ∧ t.ep i = e' ∧ ∀ j, j ≠ i → t.ep j = s.ep j
    (s.validEp i = true →
      (∃ t, exec (.busSetup i p) s = .next t ∧ t.log = s.log ∧ only t { e with
        sta := { e.sta with setup := true, bytecnt := 8 }
        fifo := { e.fifo with setup := bytesOfNat 8 p.toNat } }) ∧
      (sized → e.mps.toNat < bytes.length → exec (.busRxpkt i bytes) s = .refused .oversizePacket) ∧
      (¬sized ∨ bytes.length ≤ e.mps.toNat → held → exec (.busRxpkt i bytes) s = .next s) ∧
      (¬sized ∨ bytes.length ≤ e.mps.toNat → ¬held →
        ∃ t, exec (.busRxpkt i bytes) s = .next t ∧ t.log = s.log ∧ only t { e with
          sta := { e.sta with rxrdy := true, bytecnt := BitVec.ofNat 16 bytes.length }
          fifo := { e.fifo with rx := if s.hasDma i then e.fifo.rx ++ bytes else bytes } }) ∧
      (∃ t, exec (.busTxdone i) s = .next t ∧
        t.log = s.log ++ (if e.ctl.txpktrdy then [.sent i (e.fifo.tx.headD [])] else []) ∧ only t { e with
          sta := { e.sta with txdone := true }
          ctl := { e.ctl with txpktrdy := false }
          fifo := { e.fifo with tx := if e.ctl.txpktrdy then e.fifo.tx.tail else e.fifo.tx } }) ∧
      (∃ t, exec (.busStallsent i) s = .next t ∧ t.log = s.log ∧ only t { e with
        sta := { e.sta with stallsent := true } })) ∧
    (s.validEp i = false →
      exec (.busSetup i p) s = .next s ∧ exec (.busRxpkt i bytes) s = .next s ∧
      exec (.busTxdone i) s = .next s ∧ exec (.busStallsent i) s = .next s)

/-- DMA_EOB, DMA_EOC and DMA_ERR report their status on the channel, set its pending bit and end its slice. A slice under
way has moved its count less the remainder between memory and the FIFO, and writes at most its programmed bytes: an IN
slice's bytes went from memory to the host; of an OUT slice the bytes received, in the order they came, are at its
address (R97, R204). A channel that does not exist is left alone (R306; assumption 11). When the bytes move, and what a
failed slice leaves of the received bytes, is assumption 19. -/
def Obligations.DmaStimuliReportTheirStatus : Prop :=
  ∀ (c : EpIx) (rem : BitVec 16) (s : State),
    let d := (s.ep c).chan
    let f := (s.ep c).fifo
    let only := fun (t : State) (d' : DmaChan) =>
      t = { s with
        eps := t.eps, mem := t.mem, log := t.log, draws := t.draws
        intPending := { s.intPending with dma := t.intPending.dma } } ∧
      t.ep c = { s.ep c with
        chan := { d' with running := false }
        fifo := { f with rx := (t.ep c).fifo.rx, fill := (t.ep c).fifo.fill } } ∧
      (∀ j, j ≠ c → t.ep j = s.ep j) ∧
      (∀ k : EpIx, t.intPending.dma.getLsbD k.val = (decide (k = c) || s.intPending.dma.getLsbD k.val)) ∧
      SameMemoryOutside d.addr (s.liveSlice c) s t ∧
      RxLeft (s.liveSlice c) f.rx (t.ep c).fifo.rx ∧
      (d.running = false → t.log = s.log ∧ (t.ep c).fifo = f)
    let moved := fun (t : State) (k : Nat) =>
      (s.isIn c = true → t.log = s.log ++ [.sent c (f.fill ++ readBytes s.mem d.addr k)] ∧ (t.ep c).fifo.fill = [] ∧
        (t.ep c).fifo.rx = f.rx) ∧
      (s.isIn c = false → t.log = s.log ∧ (t.ep c).fifo = { f with rx := f.rx.drop k } ∧
        (Memory.wf s.mem = true → k ≤ f.rx.length → readBytes t.mem d.addr k = f.rx.take k))
    (s.validEp c = true → s.hasDma c = true →
      (∃ t, exec (.busDmaEob c rem) s = .next t ∧ only t { d with eob := true, remcount := rem } ∧
        (rem ≤ d.count → d.running = true → moved t (d.count.toNat - rem.toNat))) ∧
      (∃ t, exec (.busDmaEoc c) s = .next t ∧ only t { d with eoc := true, remcount := 0 } ∧
        (d.running = true → moved t d.count.toNat)) ∧
      (∃ t, exec (.busDmaErr c) s = .next t ∧ only t { d with err := true } ∧ t.log = s.log ∧
        (t.ep c).fifo.fill = f.fill)) ∧
    (s.validEp c = false ∨ s.hasDma c = false →
      exec (.busDmaEob c rem) s = .next s ∧ exec (.busDmaEoc c) s = .next s ∧ exec (.busDmaErr c) s = .next s)

/-! ### SETUP packets -/

/-- While EP0 is disabled a SETUP packet of any request is discarded with no other effect (R230). -/
def Obligations.SetupOnDisabledEp0IsDiscarded : Prop :=
  ∀ (i : Instr) (s : State), portOf i = .setup → (s.ep 0).state = .disabled →
    ∃ t, exec i s = .next t ∧ t = { s with eps := t.eps } ∧
      t.ep 0 = { s.ep 0 with
        sta := { (s.ep 0).sta with setup := false }
        fifo := { (s.ep 0).fifo with setup := (s.ep 0).fifo.setup.drop 8 } } ∧
      ∀ j, j ≠ 0 → t.ep j = s.ep j

/-- A SETUP packet of any request that announces an OUT data stage aborts the previous transfer with `Ok` and waits for
the data, or stalls EP0 if the data would not fit the scratch buffer; the request itself is not yet acted on (R230,
R231, R232). -/
def Obligations.SetupWithOutDataWaits : Prop :=
  ∀ (i : Instr) (a : SetupArgs) (s : State),
    setupArgs i = some a → (s.ep 0).state ≠ .disabled → outData a = true →
    ∃ t, exec i s = .next t ∧
      (a.length.toNat ≤ s.cfg.ep0ScratchSize →
        t.ep 0 = ep0After (s.ep 0) .ep0DataOut none ∧ SetupFrame (setupOf i) 0 [] s t) ∧
      (s.cfg.ep0ScratchSize < a.length.toNat → Stalls (setupOf i) s t)

/-- GET_STATUS stalls unless length is 2, direction IN, index high byte 0 and value 0; then it answers two bytes: for
the device bit 0 self-powered and bit 1 remote wakeup, for an endpoint below NUM_EP its stall bit, for an interface 0;
any other recipient or endpoint stalls (R87, R88, R242). -/
def Obligations.GetStatusAnswersTwoBytes : Prop :=
  ∀ (a : SetupArgs) (s : State), (s.ep 0).state ≠ .disabled → outData a = false →
    let p := setupOf (.setupGetStatus a)
    let good := a.length = 2 ∧ a.dirIn = true ∧ a.index.extractLsb' 8 8 = 0 ∧ a.value = 0
    let bit := fun b : Bool => if b then (1 : Byte) else 0
    let e := a.index.extractLsb' 0 8
    ∃ t, exec (.setupGetStatus a) s = .next t ∧
      (¬good → Stalls p s t) ∧
      (good → a.recip = 0 → Answers p [bit s.dev.selfpowered ||| (bit s.dev.rwake <<< 1), 0] s t) ∧
      (good → a.recip = 1 → Answers p [0, 0] s t) ∧
      (good → a.recip = 2 → ∀ k : EpIx, k.val = e.toNat → s.validEp k = true →
        Answers p [bit (if k = 0 then (ep0After (s.ep 0) .idle none).stalled else (s.ep k).stalled), 0] s t) ∧
      (good → a.recip = 2 → (∀ k : EpIx, k.val = e.toNat → s.validEp k = false) → Stalls p s t) ∧
      (good → a.recip ≠ 0 → a.recip ≠ 1 → a.recip ≠ 2 → Stalls p s t)

/-- CLEAR_FEATURE to an endpoint stalls unless it is ENDPOINT_HALT with length 0 on an endpoint below NUM_EP; it then
clears that endpoint's stall and halt after EP0's SETUP stage, starts its queue as it stood, and answers with a zero-length
packet. TEST_MODE of the device is accepted without effect; anything else goes to the class driver (R87, R141, R245; what
starting does: `SubmitStartsAWrite`, `SubmitStartsARead`, `SubmitStartsADmaSlice`). -/
def Obligations.ClearFeatureClearsAHalt : Prop :=
  ∀ (a : SetupArgs) (s : State), (s.ep 0).state ≠ .disabled → outData a = false →
    let p := setupOf (.setupClearFeature a)
    let e := a.index.extractLsb' 0 8
    let cleared := fun x : Endpoint =>
      { x with state := .idle, stalled := false, halted := false, ctl := { x.ctl with forcestall := false } }
    ∃ t, exec (.setupClearFeature a) s = .next t ∧
      (a.recip = 2 → (a.value ≠ 0 ∨ a.length ≠ 0 ∨ ∀ k : EpIx, k.val = e.toNat → s.validEp k = false) →
        Stalls p s t) ∧
      (a.recip = 2 → a.value = 0 → a.length = 0 → ∀ k : EpIx, k.val = e.toNat → s.validEp k = true →
        (k = 0 ∨ (s.ep k).state ≠ .stalled → Answers p [] s t) ∧
        (k ≠ 0 → (s.ep k).state = .stalled →
          (∃ u, SetupFrame p 0 [] s u ∧ u.ep 0 = ep0After (s.ep 0) .idle none ∧
            let v := (u.modEp k fun _ => cleared (s.ep k)).startTransfer k
            t = { v with eps := t.eps } ∧ ∀ j, j ≠ 0 → t.ep j = v.ep j) ∧
          FeatureFrame p k s t ∧ (cleared (s.ep k)).Kept (t.ep k) ∧ (t.ep k).settled ∧
          ((s.ep k).queue = [] → (t.ep k).state = .idle ∧ (t.ep k).queue = [] ∧ SameMemory s t) ∧
          SameMemoryOutside (s.heldStore k).1 (s.heldStore k).2 s t)) ∧
      (a.recip = 0 → a.value = 2 → Answers p [] s t) ∧
      (a.recip ≠ 2 → ¬(a.recip = 0 ∧ a.value = 2) → Forwards p s t)

/-- SET_FEATURE to an endpoint stalls unless it is ENDPOINT_HALT with length 0 on an endpoint below NUM_EP; it then
stalls and halts that endpoint unless it is EP0 or disabled, completing the head of a transfer with `IoError`, and
answers with a zero-length packet. TEST_MODE of the device is accepted without effect; anything else goes to the class
driver (R87, R246, R140). -/
def Obligations.SetFeatureHaltsAnEndpoint : Prop :=
  ∀ (a : SetupArgs) (s : State), (s.ep 0).state ≠ .disabled → outData a = false →
    let p := setupOf (.setupSetFeature a)
    let e := a.index.extractLsb' 0 8
    ∃ t, exec (.setupSetFeature a) s = .next t ∧
      (a.recip = 2 → (a.value ≠ 0 ∨ a.length ≠ 0 ∨ ∀ k : EpIx, k.val = e.toNat → s.validEp k = false) →
        Stalls p s t) ∧
      (a.recip = 2 → a.value = 0 → a.length = 0 → ∀ k : EpIx, k.val = e.toNat → s.validEp k = true →
        (k = 0 ∨ (s.ep k).state = .disabled → Answers p [] s t) ∧
        (k ≠ 0 → (s.ep k).state ≠ .disabled →
          FeatureFrame p k s t ∧ (t.ep k).state = .stalled ∧ (t.ep k).halted = true ∧
          (t.ep k).queue = (if s.moving k then (s.ep k).queue.tail else (s.ep k).queue) ∧
          ((s.ep k).state = .stalled → t.ep k = { s.ep k with halted := true }) ∧
          ((s.ep k).state ≠ .stalled → (t.ep k).stalled = true ∧ (t.ep k).ctl.forcestall = true ∧
            (t.ep k).ctl.txpktrdy = false ∧
            t.cbList = s.cbList ++ (s.ep 0).queue.map (fun h => .done 0 h .ok) ++
              (if s.moving k then ((s.ep k).queue.take 1).map (fun h => .done k h .ioError) else [])) ∧
          SameMemoryOutside (s.ep k).chan.addr (if s.moving k then s.openSlice k else 0) s t)) ∧
      (a.recip = 0 → a.value = 2 → Answers p [] s t) ∧
      (a.recip ≠ 2 → ¬(a.recip = 0 ∧ a.value = 2) → Forwards p s t)

/-- SET_ADDRESS stalls unless the recipient is the device, index and length are 0 and value is at most 127; it then
records the address, answers with a zero-length packet and leaves the address register and the device state as they
are (R248, R258, R358). -/
def Obligations.SetAddressOnlyRecords : Prop :=
  ∀ (a : SetupArgs) (s : State), (s.ep 0).state ≠ .disabled → outData a = false →
    let p := setupOf (.setupSetAddress a)
    let good := a.recip = 0 ∧ a.index = 0 ∧ a.length = 0 ∧ a.value.toNat ≤ 127
    ∃ t, exec (.setupSetAddress a) s = .next t ∧
      (good → t.ep 0 = ep0After (s.ep 0) .ep0Address (some []) ∧ SetupFrame p (a.value.extractLsb' 0 7) [] s t ∧
        t.devAddr = s.devAddr ∧ t.dev.state = s.dev.state) ∧
      (¬good → Stalls p s t)

/-- The requests the class driver answers are forwarded when their checks hold and stall otherwise: GET_DESCRIPTOR and
SET_DESCRIPTOR for the device, GET_CONFIGURATION with value 0, index 0 and length 1, SET_CONFIGURATION with index 0 and
length 0, GET_INTERFACE and SET_INTERFACE always, and every class, vendor or reserved-type request verbatim. With no
driver bound a forwarded request stalls. SYNCH_FRAME is answered with a zero-length packet, and an unknown standard
request stalls (R108, R236, R240, R249 to R256). -/
def Obligations.OtherRequestsForwardAnswerOrStall : Prop :=
  ∀ (a : SetupArgs) (code : Byte) (s : State), (s.ep 0).state ≠ .disabled → outData a = false →
    let does := fun (i : Instr) (good : Prop) => ∃ t, exec i s = .next t ∧
      (good → Forwards (setupOf i) s t) ∧ (¬good → Stalls (setupOf i) s t)
    does (.setupGetDescriptor a) (a.recip = 0) ∧
    does (.setupSetDescriptor a) (a.recip = 0) ∧
    does (.setupGetConfiguration a) (a.recip = 0 ∧ a.value = 0 ∧ a.index = 0 ∧ a.length = 1) ∧
    does (.setupSetConfiguration a) (a.recip = 0 ∧ a.index = 0 ∧ a.length = 0) ∧
    does (.setupGetInterface a) True ∧
    does (.setupSetInterface a) True ∧
    does (.setupNonstandardClass code a) True ∧
    does (.setupNonstandardVendor code a) True ∧
    does (.setupNonstandardReservedType code a) True ∧
    does (.setupUnknownStandard code a) False ∧
    ∃ t, exec (.setupSynchFrame a) s = .next t ∧ Answers (setupOf (.setupSynchFrame a)) [] s t

/-! ### Interrupt handlers -/

/-- The bus-reset handler shuts down every endpoint, completing every request with `Shutdown` by increasing endpoint
number after `on_disconnect`, leaves the others disabled and EP0 idle at its default descriptor, the device `Default` at
address 0 and the interrupt enables of R342; every bank index is 0; reservations, the driver, the saved state, the
self-powered flag and the pull-up survive (R22, R280, R342, R344). -/
def Obligations.BusResetRestoresTheDefaultState : Prop :=
  ∀ s : State, 1 ≤ s.cfg.numEp →
    let t := s.handle .busReset
    (∀ i : EpIx, (t.ep i).reserved = (s.ep i).reserved) ∧
    (∀ i : EpIx, s.validEp i = true → (t.ep i).queue = [] ∧ (t.ep i).stalled = false ∧ (t.ep i).halted = false ∧
      (t.ep i).txnullpkt = false ∧ (t.ep i).rxpend = false ∧ (t.ep i).dmaBusy = false ∧
      (t.ep i).ctl.forcestall = false ∧ (t.ep i).ctl.txpktrdy = false ∧ (t.ep i).sta = (s.ep i).sta ∧
      (t.ep i).bank = 0) ∧
    (∀ i : EpIx, i ≠ 0 → s.validEp i = true →
      (t.ep i).state = .disabled ∧ (t.ep i).ctl.enable = false ∧ (t.ep i).irqEn = false) ∧
    (∀ i : EpIx, s.validEp i = false → t.ep i = s.ep i) ∧
    (t.ep 0).state = .idle ∧ (t.ep 0).dir = .bidir ∧ (t.ep 0).type = .control ∧ (t.ep 0).mps = s.cfg.ep0MaxPacket ∧
    (t.ep 0).banks = s.cfg.epBanks.get 0 ∧ (t.ep 0).irqEn = true ∧
    (t.ep 0).ctl = ⟨true, false, false, true, true, true, true, s.cfg.ep0MaxPacket⟩ ∧
    t.cbList = s.cbList ++ (if s.dev.driver = nullRef then [] else [.onDisconnect]) ++
      s.epList.flatMap (fun i => (s.ep i).queue.map (fun h => .done i h .shutdown)) ∧
    t = { s with
      eps := t.eps, reqs := t.reqs, cbList := t.cbList, mem := t.mem, draws := t.draws
      intPending := { s.intPending with busreset := false, dma := t.intPending.dma }
      intEnable := ⟨true, s.cfg.sofIrqEn, true, true, true, 0xFFFF⟩
      devAddr := ⟨0, false⟩
      devCtl := { s.devCtl with clkgate := false }
      dev := { s.dev with
        state := .default, addr := 0, pendingAddr := 0, scratchCount := 0, rxpending := false, rwake := false
        clkGated := false } } ∧
    (∀ h, (∀ i, s.validEp i = true → h ∉ (s.ep i).queue) → t.req h = s.req h) ∧
    (∀ i h, s.validEp i = true → h ∈ (s.ep i).queue → s.hasReq h = true →
      t.req h = completed .shutdown (s.req h)) ∧
    (∀ a : Nat, (∀ i : EpIx, s.validEp i = true → ∀ k, k < s.openSlice i →
        a ≠ ((s.ep i).chan.addr + BitVec.ofNat 32 k).toNat) → readByte t.mem a = readByte s.mem a)

/-- The suspend handler saves the state, tells a bound class driver and gates the clock; the resume handler restores
the saved state, tells it and ungates (R282, R284, R286). -/
def Obligations.SuspendSavesAndResumeRestores : Prop :=
  ∀ s : State,
    let told := fun c : Callback => if s.dev.driver = nullRef then [] else [c]
    (s.dev.state ≠ .suspended → s.handle .suspend = { s with
      intPending := { s.intPending with suspend := false }
      dev := { s.dev with prevstate := s.dev.state, state := .suspended, clkGated := true }
      devCtl := { s.devCtl with clkgate := true }
      cbList := s.cbList ++ told .onSuspend }) ∧
    (s.dev.state = .suspended → s.handle .resume = { s with
      intPending := { s.intPending with resume := false }
      dev := { s.dev with state := s.dev.prevstate, clkGated := false }
      devCtl := { s.devCtl with clkgate := false }
      cbList := s.cbList ++ told .onResume })

/-- A suspend interrupt while `Suspended` and a resume interrupt while not `Suspended` only clear their pending bit
(R288). -/
def Obligations.SuspendAndResumeAreIdempotent : Prop :=
  ∀ s : State,
    (s.dev.state = .suspended →
      s.handle .suspend = { s with intPending := { s.intPending with suspend := false } }) ∧
    (s.dev.state ≠ .suspended → s.handle .resume = { s with intPending := { s.intPending with resume := false } })

/-- The start-of-frame and upstream-resume handlers clear their pending bit and write no other state; the bus agent has
written `FNUM` with the SOF (R294, R296). -/
def Obligations.SofAndUpstreamResumeOnlyAcknowledge : Prop :=
  ∀ s : State,
    s.handle .sof = { s with intPending := { s.intPending with sof := false } } ∧
    s.handle .upResume = { s with intPending := { s.intPending with upresume := false } } ∧
    ∀ (f : BitVec 16) (t : State), exec (.busSof f) s = .next t → t.fnum = f.extractLsb' 0 11

/-- TX-done in `Ep0Address` programs the recorded address, enabled unless it is 0, sets the device state to `Address` or
for 0 `Default`, leaves `Ep0Address`, and starts a request queued meanwhile (R262, R310). -/
def Obligations.TxDoneAppliesTheAddress : Prop :=
  ∀ s : State, (s.ep 0).state = .ep0Address →
    let p := s.dev.pendingAddr
    let t := s.txDone 0
    t.devAddr = ⟨p, decide (p ≠ 0)⟩ ∧
    t.dev = { s.dev with addr := p, state := if p = 0 then .default else .address } ∧
    (t.ep 0).settled ∧ (∀ j, j ≠ 0 → t.ep j = s.ep j) ∧ SameMemory s t ∧
    ((s.ep 0).queue = [] → t = { s with eps := t.eps, devAddr := t.devAddr, dev := t.dev } ∧
      t.ep 0 = { s.ep 0 with state := .idle }) ∧
    t = ({ s with devAddr := t.devAddr, dev := t.dev }.modEp 0 fun e => { e with state := .idle }).startTransfer 0

/-- When `on_setup` returns, anything but `Ok` stalls EP0; `Ok` for a standard SET_CONFIGURATION makes a device at
`Address` or `Configured` `Configured`, or `Address` for configuration 0; otherwise nothing but the return happens
(R237, R290). -/
def Obligations.OnSetupReturnActs : Prop :=
  ∀ (s : State) (c : SetupPacket) (out : Option (List Byte)) (below : List Ctx) (r : Result) (rest : List Input),
    s.stack = .active (.onSetup c out) :: below → s.input = .ret r :: rest → s.cbList = [] →
    let back := { s with stack := below, input := rest }
    let isSet := s.dev.ctrl.extractLsb' 5 2 = 0 ∧ s.dev.ctrl.extractLsb' 8 8 = 0x09 ∧
      (s.dev.state = .address ∨ s.dev.state = .configured)
    ∃ t, step s = .next t ∧
      (r ≠ .ok → t = (back.stallEp 0).release ∧
        ((s.ep 0).state ≠ .disabled → (t.ep 0).state = .stalled)) ∧
      (r = .ok → isSet → t = { back with dev := { s.dev with
        state := if s.dev.ctrl.extractLsb' 16 8 = 0 then .address else .configured } }) ∧
      (r = .ok → ¬isSet → t = back)

/-- The interrupt of one endpoint samples its enabled status bits once and handles each in the order TX-done, RX-ready,
STALL-sent, SETUP. TX-done, STALL-sent and SETUP are acknowledged first; a SETUP bank of an endpoint other than EP0 is
discarded, and one of EP0 that does not hold eight bytes stalls it (R108, R230, R308, R309, R314). -/
def Obligations.EndpointInterruptHandlesItsSample : Prop :=
  ∀ (i : EpIx) (s : State),
    let e := (s.ep i).enabledSta
    let a := if e.txdone then (s.modEp i fun x => { x with sta := { x.sta with txdone := false } }).txDone i else s
    let b := if e.rxrdy then a.rxReady i else a
    let c := if e.stallsent then (b.modEp i fun x => { x with sta := { x.sta with stallsent := false } }).stallSent i
      else b
    (e.setup = false → s.handle (.ep i) = c) ∧
    (e.setup = true → i ≠ 0 → s.handle (.ep i) = c.modEp i fun x => { x with
      sta := { x.sta with setup := false }
      fifo := { x.fifo with setup := x.fifo.setup.drop x.sta.bytecnt.toNat } }) ∧
    (e.setup = true → i = 0 → s.handle (.ep i) = c.setupReceived ∧
      ((c.ep 0).state ≠ .disabled → (c.ep 0).sta.bytecnt ≠ 8 → ((s.handle (.ep i)).ep 0).state = .stalled))

/-- TX-done of a write in flight counts the packet and hands the next one to the hardware: min(mps, remaining) bytes at
the next offset, a zero-length one if only that is owed, with a trailing one owed exactly when the request asked for it
and a packet of mps bytes ended it; with nothing left to send it completes the request with `Ok` and starts the next
queued one in the same step, or goes `Idle` with none. TX-done in `Ep0StatusIn` takes EP0 to `Idle`, or on to a queued
write. TX-done on a DMA endpoint in `Sending` masks `TXDONE` again, and completes a zero-length write, whose packet it
was, and starts the next (R63, R180, R181, R182, R200, R210, R260, R310; what starting does: `SubmitStartsAWrite`,
`SubmitStartsADmaSlice`). A write is on an endpoint that sends (R119). That each packet has a transmit bank of its own is
assumption 18. -/
def Obligations.TxDoneSendsTheNextPacket : Prop :=
  (∀ (i : EpIx) (h : Ref) (more : List Ref) (s : State),
    (s.ep i).state = .sending → (s.ep i).queue = h :: more → s.hasReq h = true →
    let q := s.req h
    let e := s.ep i
    let x := q.xfrd + q.inflight
    let n := if e.mps ≤ q.len - x then e.mps else q.len - x
    let t := s.txDone i
    let others := fun u : State => (∀ j, j ≠ i → u.ep j = s.ep j) ∧ ∀ k, k ≠ h → u.req k = s.req k
    let completes := fun (e' : Endpoint) (q' : Request) => ∃ u,
      u = { s with eps := u.eps, reqs := u.reqs, cbList := s.cbList ++ [.done i h .ok] } ∧ others u ∧
      u.ep i = { e' with state := .idle, queue := more } ∧ u.req h = completed .ok q' ∧ t = u.startTransfer i ∧
      (more = [] → t = u) ∧ EpFrame i (h :: more) s t ∧ (t.ep i).settled
    (s.hasDma i = false → q.started = true → q.xfrd.toNat + q.inflight.toNat ≤ q.len.toNat →
      (x ≠ q.len ∨ e.txnullpkt = true →
        t = { s with eps := t.eps, reqs := t.reqs } ∧ others t ∧
        t.ep i = { e with
          txnullpkt := decide (n = q.len - x) && q.nullpkt && decide (n = e.mps)
          bank := (e.bank + 1) % e.banks
          ctl := { e.ctl with txpktrdy := true }
          fifo := { e.fifo with
            fill := []
            tx := e.fifo.tx ++ [e.fifo.fill ++ readBytes s.mem (bufAt q.buf x) n.toNat] } } ∧
        t.req h = { q with xfrd := x, inflight := n }) ∧
      (x = q.len → e.txnullpkt = false → more = [] ∨ s.isIn i = true → completes e { q with xfrd := x })) ∧
    (s.hasDma i = true →
      (q.len = 0 → completes { e with ctl := { e.ctl with txdoneIe := false } } q) ∧
      (q.len ≠ 0 → t = { s with eps := t.eps } ∧ others t ∧
        t.ep i = { e with ctl := { e.ctl with txdoneIe := false } }))) ∧
  ∀ s : State, (s.ep 0).state = .ep0StatusIn →
    let idle := s.modEp 0 fun e => { e with state := .idle }
    s.txDone 0 = idle.startTransfer 0 ∧ ((s.ep 0).queue = [] → s.txDone 0 = idle) ∧ ((s.txDone 0).ep 0).settled ∧
    EpFrame 0 (s.ep 0).queue s (s.txDone 0) ∧ SameMemory s (s.txDone 0)

/-- RX-ready while `Receiving` stores min(BYTECNT, room) bytes of the bank at the head request's next offset, releases
the bank, and completes the head if its buffer is full or the packet was shorter than mps; the next queued read then
starts in the same step, or the endpoint goes `Idle` with none (R63, R190, R191, R193, R311; what starting does:
`SubmitStartsARead`). The premise of that clause is the endpoint of a read, OUT and without DMA. -/
def Obligations.RxReadyStoresThePacket : Prop :=
  ∀ (i : EpIx) (h : Ref) (more : List Ref) (s : State),
    (s.ep i).state = .receiving → (s.ep i).queue = h :: more → s.hasReq h = true →
    (s.req h).xfrd.toNat ≤ (s.req h).len.toNat →
    let q := s.req h
    let e := s.ep i
    let room := q.len - q.xfrd
    let n := if e.sta.bytecnt ≤ room then e.sta.bytecnt else room
    let ends := q.xfrd + n = q.len ∨ e.sta.bytecnt < e.mps
    let e' := { e with
      bank := (e.bank + 1) % e.banks
      sta := { e.sta with rxrdy := false }
      fifo := { e.fifo with rx := [] } }
    let stored := fun u : State =>
      (∀ j, j ≠ i → u.ep j = s.ep j) ∧ (∀ k, k ≠ h → u.req k = s.req k) ∧
      SameMemoryOutside (bufAt q.buf q.xfrd) n.toNat s u ∧
      (Memory.wf s.mem = true → n.toNat ≤ e.fifo.rx.length →
        readBytes u.mem (bufAt q.buf q.xfrd) n.toNat = e.fifo.rx.take n.toNat)
    let t := s.rxReady i
    EpFrame i (h :: more) s t ∧
    (¬ends → t = { s with eps := t.eps, reqs := t.reqs, mem := t.mem, draws := t.draws } ∧ t.ep i = e' ∧
      t.req h = { q with xfrd := q.xfrd + n } ∧ stored t) ∧
    (ends → more = [] ∨ (s.hasDma i = false ∧ s.isIn i = false) → ∃ u,
      u = { s with
        eps := u.eps, reqs := u.reqs, mem := u.mem, draws := u.draws, cbList := s.cbList ++ [.done i h .ok] } ∧
      u.ep i = { e' with state := .idle, queue := more } ∧ u.req h = completed .ok { q with xfrd := q.xfrd + n } ∧
      stored u ∧ t = u.startTransfer i ∧ (more = [] → t = u) ∧ (t.ep i).settled)

/-- RX-ready with no read in progress: a disabled endpoint and EP0 outside its OUT data stage discard the packet; any
other endpoint holds it, marked and with `RXRDY_IE` masked, and reads nothing (R187, R312). -/
def Obligations.RxReadyWithoutAReadHoldsOrDiscards : Prop :=
  ∀ (i : EpIx) (s : State), (s.ep i).state ≠ .receiving → ¬(i = 0 ∧ (s.ep 0).state = .ep0DataOut) →
    let e := s.ep i
    let t := s.rxReady i
    (∀ j, j ≠ i → t.ep j = s.ep j) ∧
    (i = 0 ∨ e.state = .disabled →
      t = { s with eps := t.eps } ∧
      t.ep i = { e with sta := { e.sta with rxrdy := false }, fifo := { e.fifo with rx := [] } }) ∧
    (i ≠ 0 → e.state ≠ .disabled → s.validEp i = true →
      t = { s with eps := t.eps, dev := { s.dev with rxpending := true } } ∧
      t.ep i = { e with rxpend := true, ctl := { e.ctl with rxrdyIe := false } })

/-- OUT data of a control request goes to the scratch buffer, never past the announced length; nothing else happens
until all of it or a short packet has arrived, and then the request is acted on. A class, vendor or reserved-type request,
SET_DESCRIPTOR and GET_DESCRIPTOR for the device, GET_CONFIGURATION with value 0, index 0 and length 1, the interface
requests, and a feature request that names neither an endpoint nor the device's TEST_MODE go to the class driver with the
bytes collected, or stall EP0 with none bound. SYNCH_FRAME and the device's TEST_MODE are answered with a zero-length
packet. Any other standard request stalls EP0 (R85, R233, R234, R236, R240, R245, R249 to R256). EP0 is left `Idle` by a
forwarded request, and a request queued meanwhile starts (R130, R174); that it does so after the dispatch is assumption
15. The bytes are those of the bank where it holds enough of them (assumption 1). -/
def Obligations.Ep0CollectsOutData : Prop :=
  ∀ s : State, (s.ep 0).state = .ep0DataOut →
    let p := s.dev.ctrl
    let c := (s.ep 0).sta.bytecnt
    let left := p.length - s.dev.scratchCount
    let n := if c ≤ left then c else left
    let e := s.ep 0
    let got := s.dev.scratchCount + n
    let data := s.dev.scratch.take s.dev.scratchCount.toNat ++ e.fifo.rx.take n.toNat ++
      s.dev.scratch.drop (s.dev.scratchCount.toNat + n.toNat)
    let d := { s.dev with scratchCount := got, scratch := data }
    let e' := { e with sta := { e.sta with rxrdy := false }, fifo := { e.fifo with rx := [] } }
    let ends := got = p.length ∨ c < e.mps
    let standard := p.rtype = 0 ∧ p.dirIn = false ∧ p.length ≠ 0
    let code := p.request
    let feature := code = 0x01 ∨ code = 0x03
    let testMode := p.recip = 0 ∧ p.value = 2
    let forwarded := p.rtype ≠ 0 ∨ (standard ∧ (((code = 0x06 ∨ code = 0x07) ∧ p.recip = 0) ∨
      (code = 0x08 ∧ p.recip = 0 ∧ p.value = 0 ∧ p.index = 0 ∧ p.length = 1) ∨ code = 0x0A ∨ code = 0x0B ∨
      (feature ∧ p.recip ≠ 2 ∧ ¬testMode)))
    let answered := standard ∧ (code = 0x0C ∨ (feature ∧ testMode))
    let t := s.rxReady 0
    n.toNat ≤ e.fifo.rx.length →
      (¬ends ∨ p.rtype ≠ 0 ∨ standard → ∀ j, j ≠ 0 → t.ep j = s.ep j) ∧
      (¬ends → t = { s with eps := t.eps, dev := d } ∧ t.ep 0 = e') ∧
      (ends → forwarded → s.dev.driver ≠ nullRef → ∃ u,
        u = { s with
          eps := u.eps
          dev := d
          cbList := s.cbList ++ [.onSetup p (some (data.take got.toNat))] } ∧
        u.ep 0 = { e' with state := .idle } ∧ (∀ j, j ≠ 0 → u.ep j = s.ep j) ∧ t = u.startTransfer 0 ∧
        (e.queue = [] → t = u) ∧ (t.ep 0).settled) ∧
      (ends → answered → t = { s with eps := t.eps, dev := d } ∧
        t.ep 0 = { e' with
          state := .ep0StatusIn
          ctl := { e.ctl with txpktrdy := true }
          fifo := { e'.fifo with fill := [], tx := e.fifo.tx ++ [e.fifo.fill] } }) ∧
      (ends → (forwarded ∧ s.dev.driver = nullRef) ∨ (standard ∧ ¬forwarded ∧ ¬answered) →
        t = { s with eps := t.eps, dev := { d with scratchCount := 0, pendingAddr := 0 } } ∧
        t.ep 0 = { e' with
          state := .stalled
          stalled := true
          txnullpkt := false
          ctl := { e.ctl with txpktrdy := false, forcestall := true }
          fifo := { e'.fifo with fill := [], tx := [] } })

/-- DMA completion of the slice of the head request: end-of-buffer counts what was moved and, while bytes remain,
programs the next slice; end-of-channel counts the whole slice; any other status ends the request with `IoError`. A
request whose bytes are all counted completes with `Ok`. After a completion the next queued request starts in the same
step (R66, R203, R205, R206; what starting does: `SubmitStartsADmaSlice`). A slice still under way, when the status was
one from before it, is stopped and leaves its bytes open (assumption 19). -/
def Obligations.DmaCompletionCountsTheSlice : Prop :=
  ∀ (i : EpIx) (h : Ref) (more : List Ref) (s : State),
    s.moving i = true → (s.ep i).queue = h :: more → s.hasReq h = true →
    (s.req h).xfrd.toNat + (s.req h).inflight.toNat ≤ (s.req h).len.toNat →
    let q := s.req h
    let e := s.ep i
    let k := if e.chan.eoc then q.inflight else q.inflight - e.chan.remcount
    let x := q.xfrd + k
    let n := if q.len - x ≤ s.cfg.dmaFifoCap then q.len - x else s.cfg.dmaFifoCap
    let eob := e.chan.eob = true ∧ e.chan.eoc = false ∧ e.chan.err = false ∧ e.chan.remcount ≤ q.inflight
    let eoc := e.chan.eoc = true ∧ e.chan.eob = false ∧ e.chan.err = false
    let stopped := { e.chan with eob := false, eoc := false, err := false, en := false, running := false }
    let seen := if s.isIn i then [] else [Event.cacheInvalidate (bufAt q.buf q.xfrd) k]
    let t := s.handle (.dma i)
    let only := fun (u : State) (e' : Endpoint) (log : List Event) (done : List Callback) =>
      u = { s with
        eps := u.eps, reqs := u.reqs, mem := u.mem, draws := u.draws, log := s.log ++ log, cbList := s.cbList ++ done
        intPending := { s.intPending with dma := u.intPending.dma } } ∧
      u.ep i = { e' with fifo := { e.fifo with rx := (u.ep i).fifo.rx } } ∧
      (∀ j, j ≠ i → u.ep j = s.ep j) ∧ (∀ g, g ≠ h → u.req g = s.req g) ∧
      SameMemoryOutside e.chan.addr (s.liveSlice i) s u ∧ RxLeft (s.liveSlice i) e.fifo.rx (u.ep i).fifo.rx
    let ended := fun (r : Result) (q' : Request) (log : List Event) => ∃ u,
      only u { e with state := .idle, queue := more, dmaBusy := false, chan := stopped } log [.done i h r] ∧
      u.req h = completed r q' ∧ t = u.startTransfer i ∧ (more = [] → t = u) ∧ (t.ep i).settled
    EpFrame i (h :: more) s t ∧
    (∀ c : EpIx, t.intPending.dma.getLsbD c.val = (decide (c ≠ i) && s.intPending.dma.getLsbD c.val)) ∧
    (eob → x ≠ q.len →
      only t { e with
        dmaBusy := true
        chan := { stopped with addr := bufAt q.buf x, count := n, en := true, ie := true, running := true } }
        (seen ++ if s.isIn i then [.cacheFlush (bufAt q.buf x) n] else []) [] ∧
      t.req h = { q with xfrd := x, inflight := n, started := true }) ∧
    (eob ∨ eoc → x = q.len → ended .ok { q with xfrd := x } seen) ∧
    (¬eob → ¬eoc → ended .ioError q []) ∧
    (eoc → x ≠ q.len → s.cfg.eocPolicy = .wait →
      only t { e with dmaBusy := false, chan := stopped } seen [] ∧
      t.req h = { q with xfrd := x, inflight := 0 }) ∧
    (eoc → x ≠ q.len → s.cfg.eocPolicy = .completeOk → ended .ok { q with xfrd := x } seen)

/-- A status that comes late is ignored: TX-done in a state that sends nothing, and a DMA status with no request in a
transfer, which is only cleared, with the channel's pending bit. A STALL-sent acknowledgment does nothing to a stalled
endpoint; on any other it clears the forced stall and ends a transfer in flight with `IoError`, its DMA slice stopped, and
starts the next queued request in the same step (R205, R207, R310, R313, R354; what starting does: `SubmitStartsAWrite`,
`SubmitStartsARead`, `SubmitStartsADmaSlice`). `TXPKTRDY` and a packet handed over stay (assumption 25); what a slice
still under way leaves is assumption 19. -/
def Obligations.LateStatusIsIgnoredAndStallSentEndsATransfer : Prop :=
  ∀ (i : EpIx) (h : Ref) (more : List Ref) (s : State),
    let e := s.ep i
    (e.state = .disabled ∨ e.state = .stalled ∨ e.state = .idle ∨ e.state = .receiving ∨ e.state = .ep0DataOut →
      s.txDone i = s) ∧
    (s.moving i = false ∨ e.queue = [] →
      let t := s.handle (.dma i)
      t = { s with
        eps := t.eps, mem := t.mem, draws := t.draws
        intPending := { s.intPending with dma := t.intPending.dma } } ∧
      (∀ c : EpIx, t.intPending.dma.getLsbD c.val = (decide (c ≠ i) && s.intPending.dma.getLsbD c.val)) ∧
      (∀ j, j ≠ i → t.ep j = s.ep j) ∧
      t.ep i = { e with
        dmaBusy := false
        chan := { e.chan with eob := false, eoc := false, err := false, en := false, running := false }
        fifo := { e.fifo with rx := (t.ep i).fifo.rx } } ∧
      SameMemoryOutside e.chan.addr (s.liveSlice i) s t ∧ RxLeft (s.liveSlice i) e.fifo.rx (t.ep i).fifo.rx) ∧
    (e.state = .stalled → s.stallSent i = s) ∧
    (e.state ≠ .stalled → s.moving i = false →
      let t := s.stallSent i
      t = { s with eps := t.eps } ∧ (∀ j, j ≠ i → t.ep j = s.ep j) ∧
      t.ep i = { e with ctl := { e.ctl with forcestall := false } }) ∧
    (s.moving i = true → e.queue = h :: more → s.hasReq h = true →
      let t := s.stallSent i
      EpFrame i (h :: more) s t ∧ (t.ep i).settled ∧ ∃ u, t = u.startTransfer i ∧ (more = [] → t = u) ∧
        u = { s with
          eps := u.eps, reqs := u.reqs, mem := u.mem, draws := u.draws, cbList := s.cbList ++ [.done i h .ioError]
          intPending := { s.intPending with dma := u.intPending.dma } } ∧
        u.ep i = { e with
          state := .idle
          queue := more
          dmaBusy := false
          ctl := { e.ctl with forcestall := false }
          chan := if e.dmaBusy then { e.chan with
              en := false, ie := false, eob := false, eoc := false, err := false, running := false }
            else e.chan
          fifo := { e.fifo with rx := (u.ep i).fifo.rx } } ∧
        (∀ j, j ≠ i → u.ep j = s.ep j) ∧ u.req h = completed .ioError (s.req h) ∧ (∀ k, k ≠ h → u.req k = s.req k) ∧
        SameMemoryOutside e.chan.addr (s.openSlice i) s u ∧ RxLeft (s.openSlice i) e.fifo.rx (u.ep i).fifo.rx)

/-! ### Properties of every step -/

/-- Every step keeps the memory's canonical form, from every state that has it. The form is the model's (assumption 4). -/
def Obligations.MemoryStaysCanonical : Prop :=
  ∀ s t : State, Memory.wf s.mem = true → step s = .next t → Memory.wf t.mem = true

/-- No step changes the implementation parameters, and none takes or returns a DMA descriptor: a pool that is all free
stays so (R20, R209). -/
def Obligations.ParametersAndPoolNeverChange : Prop :=
  ∀ s t : State, step s = .next t → t.cfg = s.cfg ∧ t.descOwner = s.descOwner

/-- Every step keeps each endpoint's flags in agreement with its state: `stalled` exactly when `Stalled`, `halted` only
when `stalled`, and an EP0-only state on no other endpoint (R23, R25); and no step leaves a transmit bank half filled or
`TXPKTRDY` set with no bank handed over (R42; the banks are assumption 18). -/
def Obligations.EndpointFlagsFollowTheState : Prop :=
  ∀ s t : State, s.endpointsConsistent → step s = .next t → t.endpointsConsistent

/-- Every step keeps R26 (d) and R174: a transfer has a head request, and an `Idle` endpoint, EP0 too, an empty queue.
For EP0 after its OUT data stage this rests on assumption 15. -/
def Obligations.QueuesFollowTheState : Prop :=
  ∀ s t : State, s.queuesConsistent → step s = .next t → t.queuesConsistent

/-- Every step keeps the copies of one fact equal: `dev.rxpending` and the endpoints' flags, `dev.addr` and `DEV_ADDR`,
the pull-up and clock-gate bits, the interrupt enables, and remote wakeup never enabled (R35, R44, R47, R282,
R342; assumption 9). -/
def Obligations.MirrorsStayEqual : Prop :=
  ∀ s t : State, 1 ≤ s.cfg.numEp → s.mirrored → step s = .next t → t.mirrored

/-- Every step keeps queues and the field `owner` in agreement: a request is on at most one queue, once, exactly while
its `owner` is the engine, as SUBMIT and `complete` write it (R26, R31, R130, R171). The engine's ownership in the sense
of R31 goes on until the completion callback is invoked (assumption 17); `RequestRecordsAreMadeAndDestroyed` and
`SubmitAndConfigureCheckInOrder` say what that forbids. -/
def Obligations.OwnershipIsKept : Prop :=
  ∀ s t : State, s.ownership → step s = .next t → t.ownership

/-- Every step keeps the counts of requests: `xfrd + inflight <= len` for every request of the engine, a request started
or with bytes in flight only at the head of a transfer, and a DMA slice under way on exactly those bytes (R26, R195,
R203). -/
def Obligations.CountsNeverExceedTheLength : Prop :=
  ∀ s t : State, s.accounted → step s = .next t → t.accounted

/-- The engine and its DMA channels write system memory only inside request buffers, and while no command runs only
inside buffers of requests the engine owns: every other byte is as before any step but the class driver's own write
(R60, R61, R72). Addresses wrap (assumption 7), and `dev.scratch`, which R61 names too, is no part of the memory the
statement speaks of (assumption 31). -/
def Obligations.OnlyRequestBuffersAreWritten : Prop :=
  ∀ s t : State, s.accounted → step s = .next t → (∀ a bytes rest, s.input ≠ .poke a bytes :: rest) →
    (∀ x : Word, ¬s.inBuffer (fun _ => True) x → readByte t.mem x.toNat = readByte s.mem x.toNat) ∧
    ((∀ bytes rest, s.input ≠ .cmd bytes :: rest) ∨ (∃ rest below, s.stack = .dispatch rest :: below) →
      ∀ x : Word, ¬s.inBuffer (fun q => q.owner = .engine) x → readByte t.mem x.toNat = readByte s.mem x.toNat)

/-- The device's address register changes only inside the dispatcher: to 0 in the handler of a bus reset, when that is the
first sampled source still pending and enabled, or to the recorded address in the handler of EP0, at the TX-done of its
status packet; no instruction writes it (R44, R262, R280, R358). The premise keeps `Ep0Address` to EP0 (R23). -/
def Obligations.AddressChangesOnlyWhenApplied : Prop :=
  ∀ s t : State, s.endpointsConsistent →
    (∀ i, exec i s = .next t → t.devAddr = s.devAddr) ∧
    (step s = .next t → t.devAddr ≠ s.devAddr → ∃ rest below, s.stack = .dispatch rest :: below ∧
      ((rest.find? s.stillPending = some .busReset ∧ s.stillPending .busReset = true ∧ t.devAddr = ⟨0, false⟩) ∨
        (rest.find? s.stillPending = some (.ep 0) ∧ (s.ep 0).state = .ep0Address ∧
          (s.ep 0).enabledSta.txdone = true ∧
          t.devAddr = ⟨s.dev.pendingAddr, decide (s.dev.pendingAddr ≠ 0)⟩)))

/-- A device becomes `Configured` only by resuming to it, which happens in the handler of a resume, when that is the first
sampled source still pending and enabled, or in the command WAKEUP, or when `on_setup` accepts a SET_CONFIGURATION with a
value other than 0 at `Address`; no step enters `Attached` (R154, R237, R284, R286, R290, R291). -/
def Obligations.ConfiguredOnlyByAcceptedRequest : Prop :=
  ∀ s t : State, step s = .next t →
    (t.dev.state = .configured → s.dev.state = .configured ∨
      (s.dev.state = .suspended ∧ s.dev.prevstate = .configured ∧
        ((∃ rest below, s.stack = .dispatch rest :: below ∧ rest.find? s.stillPending = some .resume ∧
            s.stillPending .resume = true) ∨
          ((s.stack = [] ∨ ∃ c below, s.stack = .active c :: below) ∧
            ∃ bytes later more, s.input = .cmd bytes :: later ∧ decode .command bytes = .ok (.wakeup, more)))) ∨
      (s.dev.state = .address ∧ s.dev.ctrl.rtype = 0 ∧ s.dev.ctrl.request = 0x09 ∧
        s.dev.ctrl.value.extractLsb' 0 8 ≠ 0 ∧
        ∃ c out below rest, s.stack = .active (.onSetup c out) :: below ∧ s.input = .ret .ok :: rest)) ∧
    (s.dev.state ≠ .attached → s.dev.prevstate ≠ .attached → t.dev.state ≠ .attached ∧ t.dev.prevstate ≠ .attached)

/-- The invariants hold right after reset. -/
def Obligations.InvariantsHoldAtReset : Prop :=
  Memory.wf State.reset.mem = true ∧ State.reset.endpointsConsistent ∧ State.reset.queuesConsistent ∧
  State.reset.mirrored ∧ State.reset.accounted ∧ State.reset.dev.state ≠ .attached ∧
  State.reset.dev.prevstate ≠ .attached ∧ ∀ o, o ∈ State.reset.descOwner → o = none
end

