-- ==== Sys2Proof/Laws/State.lean ====
section
/-! SUPPORT. The small lemmas of the state's updates: what each named update leaves as it was, one lemma a field,
and what it makes of the endpoint it writes. -/

namespace Sys2Proof.Machine

variable (s : State)

/-! ### The endpoint vector -/

@[simp] theorem State.modEp_ep (i j : EpIx) (f : Endpoint → Endpoint) :
    (s.modEp i f).ep j = if j = i then f (s.ep i) else s.ep j := by
  unfold State.modEp State.ep
  simp only [Vector.get_eq_getElem, Vector.getElem_set]
  split <;> split <;> simp_all [Fin.ext_iff]

theorem State.modEp_ep_same (i : EpIx) (f : Endpoint → Endpoint) : (s.modEp i f).ep i = f (s.ep i) := by simp

theorem State.modEp_ep_other (i j : EpIx) (f : Endpoint → Endpoint) (h : j ≠ i) :
    (s.modEp i f).ep j = s.ep j := by simp [h]

@[simp] theorem State.setEpState_ep (i j : EpIx) (x : EpState) :
    (s.setEpState i x).ep j = if j = i then { s.ep i with state := x } else s.ep j :=
  State.modEp_ep s i j _
@[simp] theorem State.modCtl_ep (i j : EpIx) (f : EpCtl → EpCtl) :
    (s.modCtl i f).ep j = if j = i then { s.ep i with ctl := f (s.ep i).ctl } else s.ep j :=
  State.modEp_ep s i j _
@[simp] theorem State.modSta_ep (i j : EpIx) (f : EpSta → EpSta) :
    (s.modSta i f).ep j = if j = i then { s.ep i with sta := f (s.ep i).sta } else s.ep j :=
  State.modEp_ep s i j _
@[simp] theorem State.modChan_ep (i j : EpIx) (f : DmaChan → DmaChan) :
    (s.modChan i f).ep j = if j = i then { s.ep i with chan := f (s.ep i).chan } else s.ep j :=
  State.modEp_ep s i j _
@[simp] theorem State.modReq_ep (h : Ref) (f : Request → Request) (j : EpIx) : (s.modReq h f).ep j = s.ep j := rfl
@[simp] theorem State.modDev_ep (f : Device → Device) (j : EpIx) : (s.modDev f).ep j = s.ep j := rfl
@[simp] theorem State.answer_ep (r : Result) (j : EpIx) : (s.answer r).ep j = s.ep j := rfl
@[simp] theorem State.callback_ep (c : Callback) (j : EpIx) : (s.callback c).ep j = s.ep j := rfl
@[simp] theorem State.emit_ep (e : Event) (j : EpIx) : (s.emit e).ep j = s.ep j := rfl
@[simp] theorem State.memWrite_ep (a : Word) (bs : List Byte) (j : EpIx) : (s.memWrite a bs).ep j = s.ep j := rfl
@[simp] theorem State.draw_ep (n : Nat) (j : EpIx) : (s.draw n).ep j = s.ep j := rfl
@[simp] theorem State.fifoWrite_ep (i j : EpIx) (bs : List Byte) :
    (s.fifoWrite i bs).ep j = if j = i then { s.ep i with fifo := { (s.ep i).fifo with fill := (s.ep i).fifo.fill ++ bs } } else s.ep j :=
  State.modEp_ep s i j _
@[simp] theorem State.handTx_ep (i j : EpIx) :
    (s.handTx i).ep j = if j = i then { s.ep i with ctl := { (s.ep i).ctl with txpktrdy := true }, fifo := (s.ep i).fifo.hand } else s.ep j :=
  State.modEp_ep s i j _
@[simp] theorem State.withdrawTx_ep (i j : EpIx) :
    (s.withdrawTx i).ep j = if j = i then { s.ep i with ctl := { (s.ep i).ctl with txpktrdy := false }, fifo := { (s.ep i).fifo with fill := [], tx := [] } } else s.ep j :=
  State.modEp_ep s i j _
@[simp] theorem State.sendTx_ep (i j : EpIx) :
    (s.sendTx i).ep j = if j = i then { s.ep i with ctl := { (s.ep i).ctl with txpktrdy := false }, fifo := { (s.ep i).fifo with tx := (s.ep i).fifo.tx.tail } } else s.ep j :=
  State.modEp_ep (s.emit _) i j _
@[simp] theorem State.streamTx_ep (i j : EpIx) :
    (s.streamTx i).ep j = if j = i then { s.ep i with fifo := { (s.ep i).fifo with fill := [] } } else s.ep j :=
  State.modEp_ep (s.emit _) i j _
@[simp] theorem Fifo.hand_fill (f : Fifo) : f.hand.fill = [] := rfl
@[simp] theorem Fifo.hand_tx (f : Fifo) : f.hand.tx = f.tx ++ [f.fill] := rfl
@[simp] theorem Fifo.hand_rx (f : Fifo) : f.hand.rx = f.rx := rfl
@[simp] theorem Fifo.hand_setup (f : Fifo) : f.hand.setup = f.setup := rfl
@[simp] theorem State.nextBank_ep (i j : EpIx) :
    (s.nextBank i).ep j = if j = i then { s.ep i with bank := ((s.ep i).bank + 1) % (s.ep i).banks } else s.ep j :=
  State.modEp_ep s i j _
@[simp] theorem State.discardSetup_ep (i j : EpIx) (n : Nat) :
    (s.discardSetup i n).ep j = if j = i then { s.ep i with fifo := { (s.ep i).fifo with setup := (s.ep i).fifo.setup.drop n } } else s.ep j :=
  State.modEp_ep s i j _
@[simp] theorem State.releaseRx_ep (i j : EpIx) :
    (s.releaseRx i).ep j = if j = i then { s.ep i with sta := { (s.ep i).sta with rxrdy := false }, fifo := { (s.ep i).fifo with rx := [] } } else s.ep j :=
  State.modEp_ep s i j _
@[simp] theorem State.setRxpend_ep (i j : EpIx) (b : Bool) :
    (s.setRxpend i b).ep j = if j = i then { s.ep i with rxpend := b } else s.ep j :=
  State.modEp_ep s i j fun e => { e with rxpend := b }
@[simp] theorem State.maskEpIrq_ep (i j : EpIx) :
    (s.maskEpIrq i).ep j = if j = i then { s.ep i with irqEn := false, ctl := { (s.ep i).ctl with txdoneIe := false, rxrdyIe := false, stallsentIe := false, setupIe := false }, chan := { (s.ep i).chan with ie := false } } else s.ep j :=
  State.modEp_ep s i j _
@[simp] theorem State.ackTxdone_ep (i j : EpIx) :
    (s.ackTxdone i).ep j = if j = i then { s.ep i with sta := { (s.ep i).sta with txdone := false } } else s.ep j :=
  State.modEp_ep s i j _
@[simp] theorem State.ackStallsent_ep (i j : EpIx) :
    (s.ackStallsent i).ep j = if j = i then { s.ep i with sta := { (s.ep i).sta with stallsent := false } } else s.ep j :=
  State.modEp_ep s i j _
@[simp] theorem State.ackSetup_ep (i j : EpIx) :
    (s.ackSetup i).ep j = if j = i then { s.ep i with sta := { (s.ep i).sta with setup := false } } else s.ep j :=
  State.modEp_ep s i j _
@[simp] theorem State.setDmaPending_ep (i : EpIx) (b : Bool) (j : EpIx) : (s.setDmaPending i b).ep j = s.ep j := rfl
@[simp] theorem State.enqueue_ep (i j : EpIx) (h : Ref) :
    (s.enqueue i h).ep j = if j = i then { s.ep i with queue := (s.ep i).queue ++ [h] } else s.ep j :=
  State.modEp_ep s i j _

/-! ### Fields an update leaves alone -/

@[simp] theorem State.modEp_cfg (i : EpIx) (f : Endpoint → Endpoint) : (s.modEp i f).cfg = s.cfg := rfl
@[simp] theorem State.modEp_reqs (i : EpIx) (f : Endpoint → Endpoint) : (s.modEp i f).reqs = s.reqs := rfl
@[simp] theorem State.modEp_nextReq (i : EpIx) (f : Endpoint → Endpoint) : (s.modEp i f).nextReq = s.nextReq := rfl
@[simp] theorem State.modEp_descOwner (i : EpIx) (f : Endpoint → Endpoint) : (s.modEp i f).descOwner = s.descOwner := rfl
@[simp] theorem State.modEp_dev (i : EpIx) (f : Endpoint → Endpoint) : (s.modEp i f).dev = s.dev := rfl
@[simp] theorem State.modEp_intPending (i : EpIx) (f : Endpoint → Endpoint) : (s.modEp i f).intPending = s.intPending := rfl
@[simp] theorem State.modEp_intEnable (i : EpIx) (f : Endpoint → Endpoint) : (s.modEp i f).intEnable = s.intEnable := rfl
@[simp] theorem State.modEp_devAddr (i : EpIx) (f : Endpoint → Endpoint) : (s.modEp i f).devAddr = s.devAddr := rfl
@[simp] theorem State.modEp_devCtl (i : EpIx) (f : Endpoint → Endpoint) : (s.modEp i f).devCtl = s.devCtl := rfl
@[simp] theorem State.modEp_fnum (i : EpIx) (f : Endpoint → Endpoint) : (s.modEp i f).fnum = s.fnum := rfl
@[simp] theorem State.modEp_mem (i : EpIx) (f : Endpoint → Endpoint) : (s.modEp i f).mem = s.mem := rfl
@[simp] theorem State.modEp_cbList (i : EpIx) (f : Endpoint → Endpoint) : (s.modEp i f).cbList = s.cbList := rfl
@[simp] theorem State.modEp_stack (i : EpIx) (f : Endpoint → Endpoint) : (s.modEp i f).stack = s.stack := rfl
@[simp] theorem State.modEp_input (i : EpIx) (f : Endpoint → Endpoint) : (s.modEp i f).input = s.input := rfl
@[simp] theorem State.modEp_reqPool (i : EpIx) (f : Endpoint → Endpoint) : (s.modEp i f).reqPool = s.reqPool := rfl
@[simp] theorem State.modEp_ret (i : EpIx) (f : Endpoint → Endpoint) : (s.modEp i f).ret = s.ret := rfl
@[simp] theorem State.modEp_log (i : EpIx) (f : Endpoint → Endpoint) : (s.modEp i f).log = s.log := rfl
@[simp] theorem State.modEp_draws (i : EpIx) (f : Endpoint → Endpoint) : (s.modEp i f).draws = s.draws := rfl

@[simp] theorem State.setEpState_cfg (i : EpIx) (x : EpState) : (s.setEpState i x).cfg = s.cfg := rfl
@[simp] theorem State.setEpState_reqs (i : EpIx) (x : EpState) : (s.setEpState i x).reqs = s.reqs := rfl
@[simp] theorem State.setEpState_nextReq (i : EpIx) (x : EpState) : (s.setEpState i x).nextReq = s.nextReq := rfl
@[simp] theorem State.setEpState_descOwner (i : EpIx) (x : EpState) : (s.setEpState i x).descOwner = s.descOwner := rfl
@[simp] theorem State.setEpState_dev (i : EpIx) (x : EpState) : (s.setEpState i x).dev = s.dev := rfl
@[simp] theorem State.setEpState_intPending (i : EpIx) (x : EpState) : (s.setEpState i x).intPending = s.intPending := rfl
@[simp] theorem State.setEpState_intEnable (i : EpIx) (x : EpState) : (s.setEpState i x).intEnable = s.intEnable := rfl
@[simp] theorem State.setEpState_devAddr (i : EpIx) (x : EpState) : (s.setEpState i x).devAddr = s.devAddr := rfl
@[simp] theorem State.setEpState_devCtl (i : EpIx) (x : EpState) : (s.setEpState i x).devCtl = s.devCtl := rfl
@[simp] theorem State.setEpState_fnum (i : EpIx) (x : EpState) : (s.setEpState i x).fnum = s.fnum := rfl
@[simp] theorem State.setEpState_mem (i : EpIx) (x : EpState) : (s.setEpState i x).mem = s.mem := rfl
@[simp] theorem State.setEpState_cbList (i : EpIx) (x : EpState) : (s.setEpState i x).cbList = s.cbList := rfl
@[simp] theorem State.setEpState_stack (i : EpIx) (x : EpState) : (s.setEpState i x).stack = s.stack := rfl
@[simp] theorem State.setEpState_input (i : EpIx) (x : EpState) : (s.setEpState i x).input = s.input := rfl
@[simp] theorem State.setEpState_reqPool (i : EpIx) (x : EpState) : (s.setEpState i x).reqPool = s.reqPool := rfl
@[simp] theorem State.setEpState_ret (i : EpIx) (x : EpState) : (s.setEpState i x).ret = s.ret := rfl
@[simp] theorem State.setEpState_log (i : EpIx) (x : EpState) : (s.setEpState i x).log = s.log := rfl
@[simp] theorem State.setEpState_draws (i : EpIx) (x : EpState) : (s.setEpState i x).draws = s.draws := rfl

@[simp] theorem State.modCtl_cfg (i : EpIx) (f : EpCtl → EpCtl) : (s.modCtl i f).cfg = s.cfg := rfl
@[simp] theorem State.modCtl_reqs (i : EpIx) (f : EpCtl → EpCtl) : (s.modCtl i f).reqs = s.reqs := rfl
@[simp] theorem State.modCtl_nextReq (i : EpIx) (f : EpCtl → EpCtl) : (s.modCtl i f).nextReq = s.nextReq := rfl
@[simp] theorem State.modCtl_descOwner (i : EpIx) (f : EpCtl → EpCtl) : (s.modCtl i f).descOwner = s.descOwner := rfl
@[simp] theorem State.modCtl_dev (i : EpIx) (f : EpCtl → EpCtl) : (s.modCtl i f).dev = s.dev := rfl
@[simp] theorem State.modCtl_intPending (i : EpIx) (f : EpCtl → EpCtl) : (s.modCtl i f).intPending = s.intPending := rfl
@[simp] theorem State.modCtl_intEnable (i : EpIx) (f : EpCtl → EpCtl) : (s.modCtl i f).intEnable = s.intEnable := rfl
@[simp] theorem State.modCtl_devAddr (i : EpIx) (f : EpCtl → EpCtl) : (s.modCtl i f).devAddr = s.devAddr := rfl
@[simp] theorem State.modCtl_devCtl (i : EpIx) (f : EpCtl → EpCtl) : (s.modCtl i f).devCtl = s.devCtl := rfl
@[simp] theorem State.modCtl_fnum (i : EpIx) (f : EpCtl → EpCtl) : (s.modCtl i f).fnum = s.fnum := rfl
@[simp] theorem State.modCtl_mem (i : EpIx) (f : EpCtl → EpCtl) : (s.modCtl i f).mem = s.mem := rfl
@[simp] theorem State.modCtl_cbList (i : EpIx) (f : EpCtl → EpCtl) : (s.modCtl i f).cbList = s.cbList := rfl
@[simp] theorem State.modCtl_stack (i : EpIx) (f : EpCtl → EpCtl) : (s.modCtl i f).stack = s.stack := rfl
@[simp] theorem State.modCtl_input (i : EpIx) (f : EpCtl → EpCtl) : (s.modCtl i f).input = s.input := rfl
@[simp] theorem State.modCtl_reqPool (i : EpIx) (f : EpCtl → EpCtl) : (s.modCtl i f).reqPool = s.reqPool := rfl
@[simp] theorem State.modCtl_ret (i : EpIx) (f : EpCtl → EpCtl) : (s.modCtl i f).ret = s.ret := rfl
@[simp] theorem State.modCtl_log (i : EpIx) (f : EpCtl → EpCtl) : (s.modCtl i f).log = s.log := rfl
@[simp] theorem State.modCtl_draws (i : EpIx) (f : EpCtl → EpCtl) : (s.modCtl i f).draws = s.draws := rfl

@[simp] theorem State.modSta_cfg (i : EpIx) (f : EpSta → EpSta) : (s.modSta i f).cfg = s.cfg := rfl
@[simp] theorem State.modSta_reqs (i : EpIx) (f : EpSta → EpSta) : (s.modSta i f).reqs = s.reqs := rfl
@[simp] theorem State.modSta_nextReq (i : EpIx) (f : EpSta → EpSta) : (s.modSta i f).nextReq = s.nextReq := rfl
@[simp] theorem State.modSta_descOwner (i : EpIx) (f : EpSta → EpSta) : (s.modSta i f).descOwner = s.descOwner := rfl
@[simp] theorem State.modSta_dev (i : EpIx) (f : EpSta → EpSta) : (s.modSta i f).dev = s.dev := rfl
@[simp] theorem State.modSta_intPending (i : EpIx) (f : EpSta → EpSta) : (s.modSta i f).intPending = s.intPending := rfl
@[simp] theorem State.modSta_intEnable (i : EpIx) (f : EpSta → EpSta) : (s.modSta i f).intEnable = s.intEnable := rfl
@[simp] theorem State.modSta_devAddr (i : EpIx) (f : EpSta → EpSta) : (s.modSta i f).devAddr = s.devAddr := rfl
@[simp] theorem State.modSta_devCtl (i : EpIx) (f : EpSta → EpSta) : (s.modSta i f).devCtl = s.devCtl := rfl
@[simp] theorem State.modSta_fnum (i : EpIx) (f : EpSta → EpSta) : (s.modSta i f).fnum = s.fnum := rfl
@[simp] theorem State.modSta_mem (i : EpIx) (f : EpSta → EpSta) : (s.modSta i f).mem = s.mem := rfl
@[simp] theorem State.modSta_cbList (i : EpIx) (f : EpSta → EpSta) : (s.modSta i f).cbList = s.cbList := rfl
@[simp] theorem State.modSta_stack (i : EpIx) (f : EpSta → EpSta) : (s.modSta i f).stack = s.stack := rfl
@[simp] theorem State.modSta_input (i : EpIx) (f : EpSta → EpSta) : (s.modSta i f).input = s.input := rfl
@[simp] theorem State.modSta_reqPool (i : EpIx) (f : EpSta → EpSta) : (s.modSta i f).reqPool = s.reqPool := rfl
@[simp] theorem State.modSta_ret (i : EpIx) (f : EpSta → EpSta) : (s.modSta i f).ret = s.ret := rfl
@[simp] theorem State.modSta_log (i : EpIx) (f : EpSta → EpSta) : (s.modSta i f).log = s.log := rfl
@[simp] theorem State.modSta_draws (i : EpIx) (f : EpSta → EpSta) : (s.modSta i f).draws = s.draws := rfl

@[simp] theorem State.modChan_cfg (i : EpIx) (f : DmaChan → DmaChan) : (s.modChan i f).cfg = s.cfg := rfl
@[simp] theorem State.modChan_reqs (i : EpIx) (f : DmaChan → DmaChan) : (s.modChan i f).reqs = s.reqs := rfl
@[simp] theorem State.modChan_nextReq (i : EpIx) (f : DmaChan → DmaChan) : (s.modChan i f).nextReq = s.nextReq := rfl
@[simp] theorem State.modChan_descOwner (i : EpIx) (f : DmaChan → DmaChan) : (s.modChan i f).descOwner = s.descOwner := rfl
@[simp] theorem State.modChan_dev (i : EpIx) (f : DmaChan → DmaChan) : (s.modChan i f).dev = s.dev := rfl
@[simp] theorem State.modChan_intPending (i : EpIx) (f : DmaChan → DmaChan) : (s.modChan i f).intPending = s.intPending := rfl
@[simp] theorem State.modChan_intEnable (i : EpIx) (f : DmaChan → DmaChan) : (s.modChan i f).intEnable = s.intEnable := rfl
@[simp] theorem State.modChan_devAddr (i : EpIx) (f : DmaChan → DmaChan) : (s.modChan i f).devAddr = s.devAddr := rfl
@[simp] theorem State.modChan_devCtl (i : EpIx) (f : DmaChan → DmaChan) : (s.modChan i f).devCtl = s.devCtl := rfl
@[simp] theorem State.modChan_fnum (i : EpIx) (f : DmaChan → DmaChan) : (s.modChan i f).fnum = s.fnum := rfl
@[simp] theorem State.modChan_mem (i : EpIx) (f : DmaChan → DmaChan) : (s.modChan i f).mem = s.mem := rfl
@[simp] theorem State.modChan_cbList (i : EpIx) (f : DmaChan → DmaChan) : (s.modChan i f).cbList = s.cbList := rfl
@[simp] theorem State.modChan_stack (i : EpIx) (f : DmaChan → DmaChan) : (s.modChan i f).stack = s.stack := rfl
@[simp] theorem State.modChan_input (i : EpIx) (f : DmaChan → DmaChan) : (s.modChan i f).input = s.input := rfl
@[simp] theorem State.modChan_reqPool (i : EpIx) (f : DmaChan → DmaChan) : (s.modChan i f).reqPool = s.reqPool := rfl
@[simp] theorem State.modChan_ret (i : EpIx) (f : DmaChan → DmaChan) : (s.modChan i f).ret = s.ret := rfl
@[simp] theorem State.modChan_log (i : EpIx) (f : DmaChan → DmaChan) : (s.modChan i f).log = s.log := rfl
@[simp] theorem State.modChan_draws (i : EpIx) (f : DmaChan → DmaChan) : (s.modChan i f).draws = s.draws := rfl

@[simp] theorem State.modReq_cfg (h : Ref) (f : Request → Request) : (s.modReq h f).cfg = s.cfg := rfl
@[simp] theorem State.modReq_nextReq (h : Ref) (f : Request → Request) : (s.modReq h f).nextReq = s.nextReq := rfl
@[simp] theorem State.modReq_descOwner (h : Ref) (f : Request → Request) : (s.modReq h f).descOwner = s.descOwner := rfl
@[simp] theorem State.modReq_dev (h : Ref) (f : Request → Request) : (s.modReq h f).dev = s.dev := rfl
@[simp] theorem State.modReq_intPending (h : Ref) (f : Request → Request) : (s.modReq h f).intPending = s.intPending := rfl
@[simp] theorem State.modReq_intEnable (h : Ref) (f : Request → Request) : (s.modReq h f).intEnable = s.intEnable := rfl
@[simp] theorem State.modReq_devAddr (h : Ref) (f : Request → Request) : (s.modReq h f).devAddr = s.devAddr := rfl
@[simp] theorem State.modReq_devCtl (h : Ref) (f : Request → Request) : (s.modReq h f).devCtl = s.devCtl := rfl
@[simp] theorem State.modReq_fnum (h : Ref) (f : Request → Request) : (s.modReq h f).fnum = s.fnum := rfl
@[simp] theorem State.modReq_mem (h : Ref) (f : Request → Request) : (s.modReq h f).mem = s.mem := rfl
@[simp] theorem State.modReq_cbList (h : Ref) (f : Request → Request) : (s.modReq h f).cbList = s.cbList := rfl
@[simp] theorem State.modReq_stack (h : Ref) (f : Request → Request) : (s.modReq h f).stack = s.stack := rfl
@[simp] theorem State.modReq_input (h : Ref) (f : Request → Request) : (s.modReq h f).input = s.input := rfl
@[simp] theorem State.modReq_reqPool (h : Ref) (f : Request → Request) : (s.modReq h f).reqPool = s.reqPool := rfl
@[simp] theorem State.modReq_ret (h : Ref) (f : Request → Request) : (s.modReq h f).ret = s.ret := rfl
@[simp] theorem State.modReq_log (h : Ref) (f : Request → Request) : (s.modReq h f).log = s.log := rfl
@[simp] theorem State.modReq_draws (h : Ref) (f : Request → Request) : (s.modReq h f).draws = s.draws := rfl

@[simp] theorem State.modDev_cfg (f : Device → Device) : (s.modDev f).cfg = s.cfg := rfl
@[simp] theorem State.modDev_reqs (f : Device → Device) : (s.modDev f).reqs = s.reqs := rfl
@[simp] theorem State.modDev_nextReq (f : Device → Device) : (s.modDev f).nextReq = s.nextReq := rfl
@[simp] theorem State.modDev_descOwner (f : Device → Device) : (s.modDev f).descOwner = s.descOwner := rfl
@[simp] theorem State.modDev_intPending (f : Device → Device) : (s.modDev f).intPending = s.intPending := rfl
@[simp] theorem State.modDev_intEnable (f : Device → Device) : (s.modDev f).intEnable = s.intEnable := rfl
@[simp] theorem State.modDev_devAddr (f : Device → Device) : (s.modDev f).devAddr = s.devAddr := rfl
@[simp] theorem State.modDev_devCtl (f : Device → Device) : (s.modDev f).devCtl = s.devCtl := rfl
@[simp] theorem State.modDev_fnum (f : Device → Device) : (s.modDev f).fnum = s.fnum := rfl
@[simp] theorem State.modDev_mem (f : Device → Device) : (s.modDev f).mem = s.mem := rfl
@[simp] theorem State.modDev_cbList (f : Device → Device) : (s.modDev f).cbList = s.cbList := rfl
@[simp] theorem State.modDev_stack (f : Device → Device) : (s.modDev f).stack = s.stack := rfl
@[simp] theorem State.modDev_input (f : Device → Device) : (s.modDev f).input = s.input := rfl
@[simp] theorem State.modDev_reqPool (f : Device → Device) : (s.modDev f).reqPool = s.reqPool := rfl
@[simp] theorem State.modDev_ret (f : Device → Device) : (s.modDev f).ret = s.ret := rfl
@[simp] theorem State.modDev_log (f : Device → Device) : (s.modDev f).log = s.log := rfl
@[simp] theorem State.modDev_draws (f : Device → Device) : (s.modDev f).draws = s.draws := rfl

@[simp] theorem State.answer_cfg (r : Result) : (s.answer r).cfg = s.cfg := rfl
@[simp] theorem State.answer_reqs (r : Result) : (s.answer r).reqs = s.reqs := rfl
@[simp] theorem State.answer_nextReq (r : Result) : (s.answer r).nextReq = s.nextReq := rfl
@[simp] theorem State.answer_descOwner (r : Result) : (s.answer r).descOwner = s.descOwner := rfl
@[simp] theorem State.answer_dev (r : Result) : (s.answer r).dev = s.dev := rfl
@[simp] theorem State.answer_intPending (r : Result) : (s.answer r).intPending = s.intPending := rfl
@[simp] theorem State.answer_intEnable (r : Result) : (s.answer r).intEnable = s.intEnable := rfl
@[simp] theorem State.answer_devAddr (r : Result) : (s.answer r).devAddr = s.devAddr := rfl
@[simp] theorem State.answer_devCtl (r : Result) : (s.answer r).devCtl = s.devCtl := rfl
@[simp] theorem State.answer_fnum (r : Result) : (s.answer r).fnum = s.fnum := rfl
@[simp] theorem State.answer_mem (r : Result) : (s.answer r).mem = s.mem := rfl
@[simp] theorem State.answer_cbList (r : Result) : (s.answer r).cbList = s.cbList := rfl
@[simp] theorem State.answer_stack (r : Result) : (s.answer r).stack = s.stack := rfl
@[simp] theorem State.answer_input (r : Result) : (s.answer r).input = s.input := rfl
@[simp] theorem State.answer_reqPool (r : Result) : (s.answer r).reqPool = s.reqPool := rfl
@[simp] theorem State.answer_log (r : Result) : (s.answer r).log = s.log := rfl
@[simp] theorem State.answer_draws (r : Result) : (s.answer r).draws = s.draws := rfl

@[simp] theorem State.callback_cfg (c : Callback) : (s.callback c).cfg = s.cfg := rfl
@[simp] theorem State.callback_reqs (c : Callback) : (s.callback c).reqs = s.reqs := rfl
@[simp] theorem State.callback_nextReq (c : Callback) : (s.callback c).nextReq = s.nextReq := rfl
@[simp] theorem State.callback_descOwner (c : Callback) : (s.callback c).descOwner = s.descOwner := rfl
@[simp] theorem State.callback_dev (c : Callback) : (s.callback c).dev = s.dev := rfl
@[simp] theorem State.callback_intPending (c : Callback) : (s.callback c).intPending = s.intPending := rfl
@[simp] theorem State.callback_intEnable (c : Callback) : (s.callback c).intEnable = s.intEnable := rfl
@[simp] theorem State.callback_devAddr (c : Callback) : (s.callback c).devAddr = s.devAddr := rfl
@[simp] theorem State.callback_devCtl (c : Callback) : (s.callback c).devCtl = s.devCtl := rfl
@[simp] theorem State.callback_fnum (c : Callback) : (s.callback c).fnum = s.fnum := rfl
@[simp] theorem State.callback_mem (c : Callback) : (s.callback c).mem = s.mem := rfl
@[simp] theorem State.callback_stack (c : Callback) : (s.callback c).stack = s.stack := rfl
@[simp] theorem State.callback_input (c : Callback) : (s.callback c).input = s.input := rfl
@[simp] theorem State.callback_reqPool (c : Callback) : (s.callback c).reqPool = s.reqPool := rfl
@[simp] theorem State.callback_ret (c : Callback) : (s.callback c).ret = s.ret := rfl
@[simp] theorem State.callback_log (c : Callback) : (s.callback c).log = s.log := rfl
@[simp] theorem State.callback_draws (c : Callback) : (s.callback c).draws = s.draws := rfl

@[simp] theorem State.emit_cfg (e : Event) : (s.emit e).cfg = s.cfg := rfl
@[simp] theorem State.emit_reqs (e : Event) : (s.emit e).reqs = s.reqs := rfl
@[simp] theorem State.emit_nextReq (e : Event) : (s.emit e).nextReq = s.nextReq := rfl
@[simp] theorem State.emit_descOwner (e : Event) : (s.emit e).descOwner = s.descOwner := rfl
@[simp] theorem State.emit_dev (e : Event) : (s.emit e).dev = s.dev := rfl
@[simp] theorem State.emit_intPending (e : Event) : (s.emit e).intPending = s.intPending := rfl
@[simp] theorem State.emit_intEnable (e : Event) : (s.emit e).intEnable = s.intEnable := rfl
@[simp] theorem State.emit_devAddr (e : Event) : (s.emit e).devAddr = s.devAddr := rfl
@[simp] theorem State.emit_devCtl (e : Event) : (s.emit e).devCtl = s.devCtl := rfl
@[simp] theorem State.emit_fnum (e : Event) : (s.emit e).fnum = s.fnum := rfl
@[simp] theorem State.emit_mem (e : Event) : (s.emit e).mem = s.mem := rfl
@[simp] theorem State.emit_cbList (e : Event) : (s.emit e).cbList = s.cbList := rfl
@[simp] theorem State.emit_stack (e : Event) : (s.emit e).stack = s.stack := rfl
@[simp] theorem State.emit_input (e : Event) : (s.emit e).input = s.input := rfl
@[simp] theorem State.emit_reqPool (e : Event) : (s.emit e).reqPool = s.reqPool := rfl
@[simp] theorem State.emit_ret (e : Event) : (s.emit e).ret = s.ret := rfl
@[simp] theorem State.emit_draws (e : Event) : (s.emit e).draws = s.draws := rfl

@[simp] theorem State.memWrite_cfg (a : Word) (bs : List Byte) : (s.memWrite a bs).cfg = s.cfg := rfl
@[simp] theorem State.memWrite_reqs (a : Word) (bs : List Byte) : (s.memWrite a bs).reqs = s.reqs := rfl
@[simp] theorem State.memWrite_nextReq (a : Word) (bs : List Byte) : (s.memWrite a bs).nextReq = s.nextReq := rfl
@[simp] theorem State.memWrite_descOwner (a : Word) (bs : List Byte) : (s.memWrite a bs).descOwner = s.descOwner := rfl
@[simp] theorem State.memWrite_dev (a : Word) (bs : List Byte) : (s.memWrite a bs).dev = s.dev := rfl
@[simp] theorem State.memWrite_intPending (a : Word) (bs : List Byte) : (s.memWrite a bs).intPending = s.intPending := rfl
@[simp] theorem State.memWrite_intEnable (a : Word) (bs : List Byte) : (s.memWrite a bs).intEnable = s.intEnable := rfl
@[simp] theorem State.memWrite_devAddr (a : Word) (bs : List Byte) : (s.memWrite a bs).devAddr = s.devAddr := rfl
@[simp] theorem State.memWrite_devCtl (a : Word) (bs : List Byte) : (s.memWrite a bs).devCtl = s.devCtl := rfl
@[simp] theorem State.memWrite_fnum (a : Word) (bs : List Byte) : (s.memWrite a bs).fnum = s.fnum := rfl
@[simp] theorem State.memWrite_cbList (a : Word) (bs : List Byte) : (s.memWrite a bs).cbList = s.cbList := rfl
@[simp] theorem State.memWrite_stack (a : Word) (bs : List Byte) : (s.memWrite a bs).stack = s.stack := rfl
@[simp] theorem State.memWrite_input (a : Word) (bs : List Byte) : (s.memWrite a bs).input = s.input := rfl
@[simp] theorem State.memWrite_reqPool (a : Word) (bs : List Byte) : (s.memWrite a bs).reqPool = s.reqPool := rfl
@[simp] theorem State.memWrite_ret (a : Word) (bs : List Byte) : (s.memWrite a bs).ret = s.ret := rfl
@[simp] theorem State.memWrite_log (a : Word) (bs : List Byte) : (s.memWrite a bs).log = s.log := rfl
@[simp] theorem State.memWrite_draws (a : Word) (bs : List Byte) : (s.memWrite a bs).draws = s.draws := rfl

@[simp] theorem State.draw_cfg (n : Nat) : (s.draw n).cfg = s.cfg := rfl
@[simp] theorem State.draw_reqs (n : Nat) : (s.draw n).reqs = s.reqs := rfl
@[simp] theorem State.draw_nextReq (n : Nat) : (s.draw n).nextReq = s.nextReq := rfl
@[simp] theorem State.draw_descOwner (n : Nat) : (s.draw n).descOwner = s.descOwner := rfl
@[simp] theorem State.draw_dev (n : Nat) : (s.draw n).dev = s.dev := rfl
@[simp] theorem State.draw_intPending (n : Nat) : (s.draw n).intPending = s.intPending := rfl
@[simp] theorem State.draw_intEnable (n : Nat) : (s.draw n).intEnable = s.intEnable := rfl
@[simp] theorem State.draw_devAddr (n : Nat) : (s.draw n).devAddr = s.devAddr := rfl
@[simp] theorem State.draw_devCtl (n : Nat) : (s.draw n).devCtl = s.devCtl := rfl
@[simp] theorem State.draw_fnum (n : Nat) : (s.draw n).fnum = s.fnum := rfl
@[simp] theorem State.draw_mem (n : Nat) : (s.draw n).mem = s.mem := rfl
@[simp] theorem State.draw_cbList (n : Nat) : (s.draw n).cbList = s.cbList := rfl
@[simp] theorem State.draw_stack (n : Nat) : (s.draw n).stack = s.stack := rfl
@[simp] theorem State.draw_input (n : Nat) : (s.draw n).input = s.input := rfl
@[simp] theorem State.draw_reqPool (n : Nat) : (s.draw n).reqPool = s.reqPool := rfl
@[simp] theorem State.draw_ret (n : Nat) : (s.draw n).ret = s.ret := rfl
@[simp] theorem State.draw_log (n : Nat) : (s.draw n).log = s.log := rfl

@[simp] theorem State.fifoWrite_cfg (i : EpIx) (bs : List Byte) : (s.fifoWrite i bs).cfg = s.cfg := rfl
@[simp] theorem State.fifoWrite_reqs (i : EpIx) (bs : List Byte) : (s.fifoWrite i bs).reqs = s.reqs := rfl
@[simp] theorem State.fifoWrite_nextReq (i : EpIx) (bs : List Byte) : (s.fifoWrite i bs).nextReq = s.nextReq := rfl
@[simp] theorem State.fifoWrite_descOwner (i : EpIx) (bs : List Byte) : (s.fifoWrite i bs).descOwner = s.descOwner := rfl
@[simp] theorem State.fifoWrite_dev (i : EpIx) (bs : List Byte) : (s.fifoWrite i bs).dev = s.dev := rfl
@[simp] theorem State.fifoWrite_intPending (i : EpIx) (bs : List Byte) : (s.fifoWrite i bs).intPending = s.intPending := rfl
@[simp] theorem State.fifoWrite_intEnable (i : EpIx) (bs : List Byte) : (s.fifoWrite i bs).intEnable = s.intEnable := rfl
@[simp] theorem State.fifoWrite_devAddr (i : EpIx) (bs : List Byte) : (s.fifoWrite i bs).devAddr = s.devAddr := rfl
@[simp] theorem State.fifoWrite_devCtl (i : EpIx) (bs : List Byte) : (s.fifoWrite i bs).devCtl = s.devCtl := rfl
@[simp] theorem State.fifoWrite_fnum (i : EpIx) (bs : List Byte) : (s.fifoWrite i bs).fnum = s.fnum := rfl
@[simp] theorem State.fifoWrite_mem (i : EpIx) (bs : List Byte) : (s.fifoWrite i bs).mem = s.mem := rfl
@[simp] theorem State.fifoWrite_cbList (i : EpIx) (bs : List Byte) : (s.fifoWrite i bs).cbList = s.cbList := rfl
@[simp] theorem State.fifoWrite_stack (i : EpIx) (bs : List Byte) : (s.fifoWrite i bs).stack = s.stack := rfl
@[simp] theorem State.fifoWrite_input (i : EpIx) (bs : List Byte) : (s.fifoWrite i bs).input = s.input := rfl
@[simp] theorem State.fifoWrite_reqPool (i : EpIx) (bs : List Byte) : (s.fifoWrite i bs).reqPool = s.reqPool := rfl
@[simp] theorem State.fifoWrite_ret (i : EpIx) (bs : List Byte) : (s.fifoWrite i bs).ret = s.ret := rfl
@[simp] theorem State.fifoWrite_log (i : EpIx) (bs : List Byte) : (s.fifoWrite i bs).log = s.log := rfl
@[simp] theorem State.fifoWrite_draws (i : EpIx) (bs : List Byte) : (s.fifoWrite i bs).draws = s.draws := rfl

@[simp] theorem State.handTx_cfg (i : EpIx) : (s.handTx i).cfg = s.cfg := rfl
@[simp] theorem State.handTx_reqs (i : EpIx) : (s.handTx i).reqs = s.reqs := rfl
@[simp] theorem State.handTx_nextReq (i : EpIx) : (s.handTx i).nextReq = s.nextReq := rfl
@[simp] theorem State.handTx_descOwner (i : EpIx) : (s.handTx i).descOwner = s.descOwner := rfl
@[simp] theorem State.handTx_dev (i : EpIx) : (s.handTx i).dev = s.dev := rfl
@[simp] theorem State.handTx_intPending (i : EpIx) : (s.handTx i).intPending = s.intPending := rfl
@[simp] theorem State.handTx_intEnable (i : EpIx) : (s.handTx i).intEnable = s.intEnable := rfl
@[simp] theorem State.handTx_devAddr (i : EpIx) : (s.handTx i).devAddr = s.devAddr := rfl
@[simp] theorem State.handTx_devCtl (i : EpIx) : (s.handTx i).devCtl = s.devCtl := rfl
@[simp] theorem State.handTx_fnum (i : EpIx) : (s.handTx i).fnum = s.fnum := rfl
@[simp] theorem State.handTx_mem (i : EpIx) : (s.handTx i).mem = s.mem := rfl
@[simp] theorem State.handTx_cbList (i : EpIx) : (s.handTx i).cbList = s.cbList := rfl
@[simp] theorem State.handTx_stack (i : EpIx) : (s.handTx i).stack = s.stack := rfl
@[simp] theorem State.handTx_input (i : EpIx) : (s.handTx i).input = s.input := rfl
@[simp] theorem State.handTx_reqPool (i : EpIx) : (s.handTx i).reqPool = s.reqPool := rfl
@[simp] theorem State.handTx_ret (i : EpIx) : (s.handTx i).ret = s.ret := rfl
@[simp] theorem State.handTx_log (i : EpIx) : (s.handTx i).log = s.log := rfl
@[simp] theorem State.handTx_draws (i : EpIx) : (s.handTx i).draws = s.draws := rfl

@[simp] theorem State.withdrawTx_cfg (i : EpIx) : (s.withdrawTx i).cfg = s.cfg := rfl
@[simp] theorem State.withdrawTx_reqs (i : EpIx) : (s.withdrawTx i).reqs = s.reqs := rfl
@[simp] theorem State.withdrawTx_nextReq (i : EpIx) : (s.withdrawTx i).nextReq = s.nextReq := rfl
@[simp] theorem State.withdrawTx_descOwner (i : EpIx) : (s.withdrawTx i).descOwner = s.descOwner := rfl
@[simp] theorem State.withdrawTx_dev (i : EpIx) : (s.withdrawTx i).dev = s.dev := rfl
@[simp] theorem State.withdrawTx_intPending (i : EpIx) : (s.withdrawTx i).intPending = s.intPending := rfl
@[simp] theorem State.withdrawTx_intEnable (i : EpIx) : (s.withdrawTx i).intEnable = s.intEnable := rfl
@[simp] theorem State.withdrawTx_devAddr (i : EpIx) : (s.withdrawTx i).devAddr = s.devAddr := rfl
@[simp] theorem State.withdrawTx_devCtl (i : EpIx) : (s.withdrawTx i).devCtl = s.devCtl := rfl
@[simp] theorem State.withdrawTx_fnum (i : EpIx) : (s.withdrawTx i).fnum = s.fnum := rfl
@[simp] theorem State.withdrawTx_mem (i : EpIx) : (s.withdrawTx i).mem = s.mem := rfl
@[simp] theorem State.withdrawTx_cbList (i : EpIx) : (s.withdrawTx i).cbList = s.cbList := rfl
@[simp] theorem State.withdrawTx_stack (i : EpIx) : (s.withdrawTx i).stack = s.stack := rfl
@[simp] theorem State.withdrawTx_input (i : EpIx) : (s.withdrawTx i).input = s.input := rfl
@[simp] theorem State.withdrawTx_reqPool (i : EpIx) : (s.withdrawTx i).reqPool = s.reqPool := rfl
@[simp] theorem State.withdrawTx_ret (i : EpIx) : (s.withdrawTx i).ret = s.ret := rfl
@[simp] theorem State.withdrawTx_log (i : EpIx) : (s.withdrawTx i).log = s.log := rfl
@[simp] theorem State.withdrawTx_draws (i : EpIx) : (s.withdrawTx i).draws = s.draws := rfl

@[simp] theorem State.sendTx_cfg (i : EpIx) : (s.sendTx i).cfg = s.cfg := rfl
@[simp] theorem State.sendTx_reqs (i : EpIx) : (s.sendTx i).reqs = s.reqs := rfl
@[simp] theorem State.sendTx_nextReq (i : EpIx) : (s.sendTx i).nextReq = s.nextReq := rfl
@[simp] theorem State.sendTx_descOwner (i : EpIx) : (s.sendTx i).descOwner = s.descOwner := rfl
@[simp] theorem State.sendTx_dev (i : EpIx) : (s.sendTx i).dev = s.dev := rfl
@[simp] theorem State.sendTx_intPending (i : EpIx) : (s.sendTx i).intPending = s.intPending := rfl
@[simp] theorem State.sendTx_intEnable (i : EpIx) : (s.sendTx i).intEnable = s.intEnable := rfl
@[simp] theorem State.sendTx_devAddr (i : EpIx) : (s.sendTx i).devAddr = s.devAddr := rfl
@[simp] theorem State.sendTx_devCtl (i : EpIx) : (s.sendTx i).devCtl = s.devCtl := rfl
@[simp] theorem State.sendTx_fnum (i : EpIx) : (s.sendTx i).fnum = s.fnum := rfl
@[simp] theorem State.sendTx_mem (i : EpIx) : (s.sendTx i).mem = s.mem := rfl
@[simp] theorem State.sendTx_cbList (i : EpIx) : (s.sendTx i).cbList = s.cbList := rfl
@[simp] theorem State.sendTx_stack (i : EpIx) : (s.sendTx i).stack = s.stack := rfl
@[simp] theorem State.sendTx_input (i : EpIx) : (s.sendTx i).input = s.input := rfl
@[simp] theorem State.sendTx_reqPool (i : EpIx) : (s.sendTx i).reqPool = s.reqPool := rfl
@[simp] theorem State.sendTx_ret (i : EpIx) : (s.sendTx i).ret = s.ret := rfl
@[simp] theorem State.sendTx_draws (i : EpIx) : (s.sendTx i).draws = s.draws := rfl

@[simp] theorem State.streamTx_cfg (i : EpIx) : (s.streamTx i).cfg = s.cfg := rfl
@[simp] theorem State.streamTx_reqs (i : EpIx) : (s.streamTx i).reqs = s.reqs := rfl
@[simp] theorem State.streamTx_nextReq (i : EpIx) : (s.streamTx i).nextReq = s.nextReq := rfl
@[simp] theorem State.streamTx_descOwner (i : EpIx) : (s.streamTx i).descOwner = s.descOwner := rfl
@[simp] theorem State.streamTx_dev (i : EpIx) : (s.streamTx i).dev = s.dev := rfl
@[simp] theorem State.streamTx_intPending (i : EpIx) : (s.streamTx i).intPending = s.intPending := rfl
@[simp] theorem State.streamTx_intEnable (i : EpIx) : (s.streamTx i).intEnable = s.intEnable := rfl
@[simp] theorem State.streamTx_devAddr (i : EpIx) : (s.streamTx i).devAddr = s.devAddr := rfl
@[simp] theorem State.streamTx_devCtl (i : EpIx) : (s.streamTx i).devCtl = s.devCtl := rfl
@[simp] theorem State.streamTx_fnum (i : EpIx) : (s.streamTx i).fnum = s.fnum := rfl
@[simp] theorem State.streamTx_mem (i : EpIx) : (s.streamTx i).mem = s.mem := rfl
@[simp] theorem State.streamTx_cbList (i : EpIx) : (s.streamTx i).cbList = s.cbList := rfl
@[simp] theorem State.streamTx_stack (i : EpIx) : (s.streamTx i).stack = s.stack := rfl
@[simp] theorem State.streamTx_input (i : EpIx) : (s.streamTx i).input = s.input := rfl
@[simp] theorem State.streamTx_reqPool (i : EpIx) : (s.streamTx i).reqPool = s.reqPool := rfl
@[simp] theorem State.streamTx_ret (i : EpIx) : (s.streamTx i).ret = s.ret := rfl
@[simp] theorem State.streamTx_draws (i : EpIx) : (s.streamTx i).draws = s.draws := rfl

@[simp] theorem State.nextBank_cfg (i : EpIx) : (s.nextBank i).cfg = s.cfg := rfl
@[simp] theorem State.nextBank_reqs (i : EpIx) : (s.nextBank i).reqs = s.reqs := rfl
@[simp] theorem State.nextBank_nextReq (i : EpIx) : (s.nextBank i).nextReq = s.nextReq := rfl
@[simp] theorem State.nextBank_descOwner (i : EpIx) : (s.nextBank i).descOwner = s.descOwner := rfl
@[simp] theorem State.nextBank_dev (i : EpIx) : (s.nextBank i).dev = s.dev := rfl
@[simp] theorem State.nextBank_intPending (i : EpIx) : (s.nextBank i).intPending = s.intPending := rfl
@[simp] theorem State.nextBank_intEnable (i : EpIx) : (s.nextBank i).intEnable = s.intEnable := rfl
@[simp] theorem State.nextBank_devAddr (i : EpIx) : (s.nextBank i).devAddr = s.devAddr := rfl
@[simp] theorem State.nextBank_devCtl (i : EpIx) : (s.nextBank i).devCtl = s.devCtl := rfl
@[simp] theorem State.nextBank_fnum (i : EpIx) : (s.nextBank i).fnum = s.fnum := rfl
@[simp] theorem State.nextBank_mem (i : EpIx) : (s.nextBank i).mem = s.mem := rfl
@[simp] theorem State.nextBank_cbList (i : EpIx) : (s.nextBank i).cbList = s.cbList := rfl
@[simp] theorem State.nextBank_stack (i : EpIx) : (s.nextBank i).stack = s.stack := rfl
@[simp] theorem State.nextBank_input (i : EpIx) : (s.nextBank i).input = s.input := rfl
@[simp] theorem State.nextBank_reqPool (i : EpIx) : (s.nextBank i).reqPool = s.reqPool := rfl
@[simp] theorem State.nextBank_ret (i : EpIx) : (s.nextBank i).ret = s.ret := rfl
@[simp] theorem State.nextBank_log (i : EpIx) : (s.nextBank i).log = s.log := rfl
@[simp] theorem State.nextBank_draws (i : EpIx) : (s.nextBank i).draws = s.draws := rfl

@[simp] theorem State.discardSetup_cfg (i : EpIx) (n : Nat) : (s.discardSetup i n).cfg = s.cfg := rfl
@[simp] theorem State.discardSetup_reqs (i : EpIx) (n : Nat) : (s.discardSetup i n).reqs = s.reqs := rfl
@[simp] theorem State.discardSetup_nextReq (i : EpIx) (n : Nat) : (s.discardSetup i n).nextReq = s.nextReq := rfl
@[simp] theorem State.discardSetup_descOwner (i : EpIx) (n : Nat) : (s.discardSetup i n).descOwner = s.descOwner := rfl
@[simp] theorem State.discardSetup_dev (i : EpIx) (n : Nat) : (s.discardSetup i n).dev = s.dev := rfl
@[simp] theorem State.discardSetup_intPending (i : EpIx) (n : Nat) : (s.discardSetup i n).intPending = s.intPending := rfl
@[simp] theorem State.discardSetup_intEnable (i : EpIx) (n : Nat) : (s.discardSetup i n).intEnable = s.intEnable := rfl
@[simp] theorem State.discardSetup_devAddr (i : EpIx) (n : Nat) : (s.discardSetup i n).devAddr = s.devAddr := rfl
@[simp] theorem State.discardSetup_devCtl (i : EpIx) (n : Nat) : (s.discardSetup i n).devCtl = s.devCtl := rfl
@[simp] theorem State.discardSetup_fnum (i : EpIx) (n : Nat) : (s.discardSetup i n).fnum = s.fnum := rfl
@[simp] theorem State.discardSetup_mem (i : EpIx) (n : Nat) : (s.discardSetup i n).mem = s.mem := rfl
@[simp] theorem State.discardSetup_cbList (i : EpIx) (n : Nat) : (s.discardSetup i n).cbList = s.cbList := rfl
@[simp] theorem State.discardSetup_stack (i : EpIx) (n : Nat) : (s.discardSetup i n).stack = s.stack := rfl
@[simp] theorem State.discardSetup_input (i : EpIx) (n : Nat) : (s.discardSetup i n).input = s.input := rfl
@[simp] theorem State.discardSetup_reqPool (i : EpIx) (n : Nat) : (s.discardSetup i n).reqPool = s.reqPool := rfl
@[simp] theorem State.discardSetup_ret (i : EpIx) (n : Nat) : (s.discardSetup i n).ret = s.ret := rfl
@[simp] theorem State.discardSetup_log (i : EpIx) (n : Nat) : (s.discardSetup i n).log = s.log := rfl
@[simp] theorem State.discardSetup_draws (i : EpIx) (n : Nat) : (s.discardSetup i n).draws = s.draws := rfl

@[simp] theorem State.releaseRx_cfg (i : EpIx) : (s.releaseRx i).cfg = s.cfg := rfl
@[simp] theorem State.releaseRx_reqs (i : EpIx) : (s.releaseRx i).reqs = s.reqs := rfl
@[simp] theorem State.releaseRx_nextReq (i : EpIx) : (s.releaseRx i).nextReq = s.nextReq := rfl
@[simp] theorem State.releaseRx_descOwner (i : EpIx) : (s.releaseRx i).descOwner = s.descOwner := rfl
@[simp] theorem State.releaseRx_dev (i : EpIx) : (s.releaseRx i).dev = s.dev := rfl
@[simp] theorem State.releaseRx_intPending (i : EpIx) : (s.releaseRx i).intPending = s.intPending := rfl
@[simp] theorem State.releaseRx_intEnable (i : EpIx) : (s.releaseRx i).intEnable = s.intEnable := rfl
@[simp] theorem State.releaseRx_devAddr (i : EpIx) : (s.releaseRx i).devAddr = s.devAddr := rfl
@[simp] theorem State.releaseRx_devCtl (i : EpIx) : (s.releaseRx i).devCtl = s.devCtl := rfl
@[simp] theorem State.releaseRx_fnum (i : EpIx) : (s.releaseRx i).fnum = s.fnum := rfl
@[simp] theorem State.releaseRx_mem (i : EpIx) : (s.releaseRx i).mem = s.mem := rfl
@[simp] theorem State.releaseRx_cbList (i : EpIx) : (s.releaseRx i).cbList = s.cbList := rfl
@[simp] theorem State.releaseRx_stack (i : EpIx) : (s.releaseRx i).stack = s.stack := rfl
@[simp] theorem State.releaseRx_input (i : EpIx) : (s.releaseRx i).input = s.input := rfl
@[simp] theorem State.releaseRx_reqPool (i : EpIx) : (s.releaseRx i).reqPool = s.reqPool := rfl
@[simp] theorem State.releaseRx_ret (i : EpIx) : (s.releaseRx i).ret = s.ret := rfl
@[simp] theorem State.releaseRx_log (i : EpIx) : (s.releaseRx i).log = s.log := rfl
@[simp] theorem State.releaseRx_draws (i : EpIx) : (s.releaseRx i).draws = s.draws := rfl

@[simp] theorem State.setRxpend_cfg (i : EpIx) (b : Bool) : (s.setRxpend i b).cfg = s.cfg := rfl
@[simp] theorem State.setRxpend_reqs (i : EpIx) (b : Bool) : (s.setRxpend i b).reqs = s.reqs := rfl
@[simp] theorem State.setRxpend_nextReq (i : EpIx) (b : Bool) : (s.setRxpend i b).nextReq = s.nextReq := rfl
@[simp] theorem State.setRxpend_descOwner (i : EpIx) (b : Bool) : (s.setRxpend i b).descOwner = s.descOwner := rfl
@[simp] theorem State.setRxpend_intPending (i : EpIx) (b : Bool) : (s.setRxpend i b).intPending = s.intPending := rfl
@[simp] theorem State.setRxpend_intEnable (i : EpIx) (b : Bool) : (s.setRxpend i b).intEnable = s.intEnable := rfl
@[simp] theorem State.setRxpend_devAddr (i : EpIx) (b : Bool) : (s.setRxpend i b).devAddr = s.devAddr := rfl
@[simp] theorem State.setRxpend_devCtl (i : EpIx) (b : Bool) : (s.setRxpend i b).devCtl = s.devCtl := rfl
@[simp] theorem State.setRxpend_fnum (i : EpIx) (b : Bool) : (s.setRxpend i b).fnum = s.fnum := rfl
@[simp] theorem State.setRxpend_mem (i : EpIx) (b : Bool) : (s.setRxpend i b).mem = s.mem := rfl
@[simp] theorem State.setRxpend_cbList (i : EpIx) (b : Bool) : (s.setRxpend i b).cbList = s.cbList := rfl
@[simp] theorem State.setRxpend_stack (i : EpIx) (b : Bool) : (s.setRxpend i b).stack = s.stack := rfl
@[simp] theorem State.setRxpend_input (i : EpIx) (b : Bool) : (s.setRxpend i b).input = s.input := rfl
@[simp] theorem State.setRxpend_reqPool (i : EpIx) (b : Bool) : (s.setRxpend i b).reqPool = s.reqPool := rfl
@[simp] theorem State.setRxpend_ret (i : EpIx) (b : Bool) : (s.setRxpend i b).ret = s.ret := rfl
@[simp] theorem State.setRxpend_log (i : EpIx) (b : Bool) : (s.setRxpend i b).log = s.log := rfl
@[simp] theorem State.setRxpend_draws (i : EpIx) (b : Bool) : (s.setRxpend i b).draws = s.draws := rfl

@[simp] theorem State.maskEpIrq_cfg (i : EpIx) : (s.maskEpIrq i).cfg = s.cfg := rfl
@[simp] theorem State.maskEpIrq_reqs (i : EpIx) : (s.maskEpIrq i).reqs = s.reqs := rfl
@[simp] theorem State.maskEpIrq_nextReq (i : EpIx) : (s.maskEpIrq i).nextReq = s.nextReq := rfl
@[simp] theorem State.maskEpIrq_descOwner (i : EpIx) : (s.maskEpIrq i).descOwner = s.descOwner := rfl
@[simp] theorem State.maskEpIrq_dev (i : EpIx) : (s.maskEpIrq i).dev = s.dev := rfl
@[simp] theorem State.maskEpIrq_intPending (i : EpIx) : (s.maskEpIrq i).intPending = s.intPending := rfl
@[simp] theorem State.maskEpIrq_intEnable (i : EpIx) : (s.maskEpIrq i).intEnable = s.intEnable := rfl
@[simp] theorem State.maskEpIrq_devAddr (i : EpIx) : (s.maskEpIrq i).devAddr = s.devAddr := rfl
@[simp] theorem State.maskEpIrq_devCtl (i : EpIx) : (s.maskEpIrq i).devCtl = s.devCtl := rfl
@[simp] theorem State.maskEpIrq_fnum (i : EpIx) : (s.maskEpIrq i).fnum = s.fnum := rfl
@[simp] theorem State.maskEpIrq_mem (i : EpIx) : (s.maskEpIrq i).mem = s.mem := rfl
@[simp] theorem State.maskEpIrq_cbList (i : EpIx) : (s.maskEpIrq i).cbList = s.cbList := rfl
@[simp] theorem State.maskEpIrq_stack (i : EpIx) : (s.maskEpIrq i).stack = s.stack := rfl
@[simp] theorem State.maskEpIrq_input (i : EpIx) : (s.maskEpIrq i).input = s.input := rfl
@[simp] theorem State.maskEpIrq_reqPool (i : EpIx) : (s.maskEpIrq i).reqPool = s.reqPool := rfl
@[simp] theorem State.maskEpIrq_ret (i : EpIx) : (s.maskEpIrq i).ret = s.ret := rfl
@[simp] theorem State.maskEpIrq_log (i : EpIx) : (s.maskEpIrq i).log = s.log := rfl
@[simp] theorem State.maskEpIrq_draws (i : EpIx) : (s.maskEpIrq i).draws = s.draws := rfl

@[simp] theorem State.ackTxdone_cfg (i : EpIx) : (s.ackTxdone i).cfg = s.cfg := rfl
@[simp] theorem State.ackTxdone_reqs (i : EpIx) : (s.ackTxdone i).reqs = s.reqs := rfl
@[simp] theorem State.ackTxdone_nextReq (i : EpIx) : (s.ackTxdone i).nextReq = s.nextReq := rfl
@[simp] theorem State.ackTxdone_descOwner (i : EpIx) : (s.ackTxdone i).descOwner = s.descOwner := rfl
@[simp] theorem State.ackTxdone_dev (i : EpIx) : (s.ackTxdone i).dev = s.dev := rfl
@[simp] theorem State.ackTxdone_intPending (i : EpIx) : (s.ackTxdone i).intPending = s.intPending := rfl
@[simp] theorem State.ackTxdone_intEnable (i : EpIx) : (s.ackTxdone i).intEnable = s.intEnable := rfl
@[simp] theorem State.ackTxdone_devAddr (i : EpIx) : (s.ackTxdone i).devAddr = s.devAddr := rfl
@[simp] theorem State.ackTxdone_devCtl (i : EpIx) : (s.ackTxdone i).devCtl = s.devCtl := rfl
@[simp] theorem State.ackTxdone_fnum (i : EpIx) : (s.ackTxdone i).fnum = s.fnum := rfl
@[simp] theorem State.ackTxdone_mem (i : EpIx) : (s.ackTxdone i).mem = s.mem := rfl
@[simp] theorem State.ackTxdone_cbList (i : EpIx) : (s.ackTxdone i).cbList = s.cbList := rfl
@[simp] theorem State.ackTxdone_stack (i : EpIx) : (s.ackTxdone i).stack = s.stack := rfl
@[simp] theorem State.ackTxdone_input (i : EpIx) : (s.ackTxdone i).input = s.input := rfl
@[simp] theorem State.ackTxdone_reqPool (i : EpIx) : (s.ackTxdone i).reqPool = s.reqPool := rfl
@[simp] theorem State.ackTxdone_ret (i : EpIx) : (s.ackTxdone i).ret = s.ret := rfl
@[simp] theorem State.ackTxdone_log (i : EpIx) : (s.ackTxdone i).log = s.log := rfl
@[simp] theorem State.ackTxdone_draws (i : EpIx) : (s.ackTxdone i).draws = s.draws := rfl

@[simp] theorem State.ackStallsent_cfg (i : EpIx) : (s.ackStallsent i).cfg = s.cfg := rfl
@[simp] theorem State.ackStallsent_reqs (i : EpIx) : (s.ackStallsent i).reqs = s.reqs := rfl
@[simp] theorem State.ackStallsent_nextReq (i : EpIx) : (s.ackStallsent i).nextReq = s.nextReq := rfl
@[simp] theorem State.ackStallsent_descOwner (i : EpIx) : (s.ackStallsent i).descOwner = s.descOwner := rfl
@[simp] theorem State.ackStallsent_dev (i : EpIx) : (s.ackStallsent i).dev = s.dev := rfl
@[simp] theorem State.ackStallsent_intPending (i : EpIx) : (s.ackStallsent i).intPending = s.intPending := rfl
@[simp] theorem State.ackStallsent_intEnable (i : EpIx) : (s.ackStallsent i).intEnable = s.intEnable := rfl
@[simp] theorem State.ackStallsent_devAddr (i : EpIx) : (s.ackStallsent i).devAddr = s.devAddr := rfl
@[simp] theorem State.ackStallsent_devCtl (i : EpIx) : (s.ackStallsent i).devCtl = s.devCtl := rfl
@[simp] theorem State.ackStallsent_fnum (i : EpIx) : (s.ackStallsent i).fnum = s.fnum := rfl
@[simp] theorem State.ackStallsent_mem (i : EpIx) : (s.ackStallsent i).mem = s.mem := rfl
@[simp] theorem State.ackStallsent_cbList (i : EpIx) : (s.ackStallsent i).cbList = s.cbList := rfl
@[simp] theorem State.ackStallsent_stack (i : EpIx) : (s.ackStallsent i).stack = s.stack := rfl
@[simp] theorem State.ackStallsent_input (i : EpIx) : (s.ackStallsent i).input = s.input := rfl
@[simp] theorem State.ackStallsent_reqPool (i : EpIx) : (s.ackStallsent i).reqPool = s.reqPool := rfl
@[simp] theorem State.ackStallsent_ret (i : EpIx) : (s.ackStallsent i).ret = s.ret := rfl
@[simp] theorem State.ackStallsent_log (i : EpIx) : (s.ackStallsent i).log = s.log := rfl
@[simp] theorem State.ackStallsent_draws (i : EpIx) : (s.ackStallsent i).draws = s.draws := rfl

@[simp] theorem State.ackSetup_cfg (i : EpIx) : (s.ackSetup i).cfg = s.cfg := rfl
@[simp] theorem State.ackSetup_reqs (i : EpIx) : (s.ackSetup i).reqs = s.reqs := rfl
@[simp] theorem State.ackSetup_nextReq (i : EpIx) : (s.ackSetup i).nextReq = s.nextReq := rfl
@[simp] theorem State.ackSetup_descOwner (i : EpIx) : (s.ackSetup i).descOwner = s.descOwner := rfl
@[simp] theorem State.ackSetup_dev (i : EpIx) : (s.ackSetup i).dev = s.dev := rfl
@[simp] theorem State.ackSetup_intPending (i : EpIx) : (s.ackSetup i).intPending = s.intPending := rfl
@[simp] theorem State.ackSetup_intEnable (i : EpIx) : (s.ackSetup i).intEnable = s.intEnable := rfl
@[simp] theorem State.ackSetup_devAddr (i : EpIx) : (s.ackSetup i).devAddr = s.devAddr := rfl
@[simp] theorem State.ackSetup_devCtl (i : EpIx) : (s.ackSetup i).devCtl = s.devCtl := rfl
@[simp] theorem State.ackSetup_fnum (i : EpIx) : (s.ackSetup i).fnum = s.fnum := rfl
@[simp] theorem State.ackSetup_mem (i : EpIx) : (s.ackSetup i).mem = s.mem := rfl
@[simp] theorem State.ackSetup_cbList (i : EpIx) : (s.ackSetup i).cbList = s.cbList := rfl
@[simp] theorem State.ackSetup_stack (i : EpIx) : (s.ackSetup i).stack = s.stack := rfl
@[simp] theorem State.ackSetup_input (i : EpIx) : (s.ackSetup i).input = s.input := rfl
@[simp] theorem State.ackSetup_reqPool (i : EpIx) : (s.ackSetup i).reqPool = s.reqPool := rfl
@[simp] theorem State.ackSetup_ret (i : EpIx) : (s.ackSetup i).ret = s.ret := rfl
@[simp] theorem State.ackSetup_log (i : EpIx) : (s.ackSetup i).log = s.log := rfl
@[simp] theorem State.ackSetup_draws (i : EpIx) : (s.ackSetup i).draws = s.draws := rfl

@[simp] theorem State.setDmaPending_cfg (i : EpIx) (b : Bool) : (s.setDmaPending i b).cfg = s.cfg := rfl
@[simp] theorem State.setDmaPending_reqs (i : EpIx) (b : Bool) : (s.setDmaPending i b).reqs = s.reqs := rfl
@[simp] theorem State.setDmaPending_nextReq (i : EpIx) (b : Bool) : (s.setDmaPending i b).nextReq = s.nextReq := rfl
@[simp] theorem State.setDmaPending_descOwner (i : EpIx) (b : Bool) : (s.setDmaPending i b).descOwner = s.descOwner := rfl
@[simp] theorem State.setDmaPending_dev (i : EpIx) (b : Bool) : (s.setDmaPending i b).dev = s.dev := rfl
@[simp] theorem State.setDmaPending_intEnable (i : EpIx) (b : Bool) : (s.setDmaPending i b).intEnable = s.intEnable := rfl
@[simp] theorem State.setDmaPending_devAddr (i : EpIx) (b : Bool) : (s.setDmaPending i b).devAddr = s.devAddr := rfl
@[simp] theorem State.setDmaPending_devCtl (i : EpIx) (b : Bool) : (s.setDmaPending i b).devCtl = s.devCtl := rfl
@[simp] theorem State.setDmaPending_fnum (i : EpIx) (b : Bool) : (s.setDmaPending i b).fnum = s.fnum := rfl
@[simp] theorem State.setDmaPending_mem (i : EpIx) (b : Bool) : (s.setDmaPending i b).mem = s.mem := rfl
@[simp] theorem State.setDmaPending_cbList (i : EpIx) (b : Bool) : (s.setDmaPending i b).cbList = s.cbList := rfl
@[simp] theorem State.setDmaPending_stack (i : EpIx) (b : Bool) : (s.setDmaPending i b).stack = s.stack := rfl
@[simp] theorem State.setDmaPending_input (i : EpIx) (b : Bool) : (s.setDmaPending i b).input = s.input := rfl
@[simp] theorem State.setDmaPending_reqPool (i : EpIx) (b : Bool) : (s.setDmaPending i b).reqPool = s.reqPool := rfl
@[simp] theorem State.setDmaPending_ret (i : EpIx) (b : Bool) : (s.setDmaPending i b).ret = s.ret := rfl
@[simp] theorem State.setDmaPending_log (i : EpIx) (b : Bool) : (s.setDmaPending i b).log = s.log := rfl
@[simp] theorem State.setDmaPending_draws (i : EpIx) (b : Bool) : (s.setDmaPending i b).draws = s.draws := rfl

@[simp] theorem State.enqueue_cfg (i : EpIx) (h : Ref) : (s.enqueue i h).cfg = s.cfg := rfl
@[simp] theorem State.enqueue_reqs (i : EpIx) (h : Ref) : (s.enqueue i h).reqs = s.reqs := rfl
@[simp] theorem State.enqueue_nextReq (i : EpIx) (h : Ref) : (s.enqueue i h).nextReq = s.nextReq := rfl
@[simp] theorem State.enqueue_descOwner (i : EpIx) (h : Ref) : (s.enqueue i h).descOwner = s.descOwner := rfl
@[simp] theorem State.enqueue_dev (i : EpIx) (h : Ref) : (s.enqueue i h).dev = s.dev := rfl
@[simp] theorem State.enqueue_intPending (i : EpIx) (h : Ref) : (s.enqueue i h).intPending = s.intPending := rfl
@[simp] theorem State.enqueue_intEnable (i : EpIx) (h : Ref) : (s.enqueue i h).intEnable = s.intEnable := rfl
@[simp] theorem State.enqueue_devAddr (i : EpIx) (h : Ref) : (s.enqueue i h).devAddr = s.devAddr := rfl
@[simp] theorem State.enqueue_devCtl (i : EpIx) (h : Ref) : (s.enqueue i h).devCtl = s.devCtl := rfl
@[simp] theorem State.enqueue_fnum (i : EpIx) (h : Ref) : (s.enqueue i h).fnum = s.fnum := rfl
@[simp] theorem State.enqueue_mem (i : EpIx) (h : Ref) : (s.enqueue i h).mem = s.mem := rfl
@[simp] theorem State.enqueue_cbList (i : EpIx) (h : Ref) : (s.enqueue i h).cbList = s.cbList := rfl
@[simp] theorem State.enqueue_stack (i : EpIx) (h : Ref) : (s.enqueue i h).stack = s.stack := rfl
@[simp] theorem State.enqueue_input (i : EpIx) (h : Ref) : (s.enqueue i h).input = s.input := rfl
@[simp] theorem State.enqueue_reqPool (i : EpIx) (h : Ref) : (s.enqueue i h).reqPool = s.reqPool := rfl
@[simp] theorem State.enqueue_ret (i : EpIx) (h : Ref) : (s.enqueue i h).ret = s.ret := rfl
@[simp] theorem State.enqueue_log (i : EpIx) (h : Ref) : (s.enqueue i h).log = s.log := rfl
@[simp] theorem State.enqueue_draws (i : EpIx) (h : Ref) : (s.enqueue i h).draws = s.draws := rfl

end Sys2Proof.Machine
end

