-- ==== Sys2Proof/Laws/Request.lean ====
section
/-! SUPPORT. The laws of the request table: what writing one record does to each record, and which records exist. -/

namespace Sys2Proof.Machine

/-- Looking up a key in a list whose values were changed at one key. -/
theorem lookup_map_modify (h k : Ref) (f : Request → Request) (l : List (Ref × Request)) :
    (l.map fun p => if p.1 = h then (p.1, f p.2) else p).lookup k =
      if k = h then (l.lookup k).map f else l.lookup k := by
  induction l with
  | nil => split <;> rfl
  | cons p rest ih =>
    obtain ⟨a, q⟩ := p
    by_cases ha : a = h
    · subst ha
      by_cases hk : k = a
      · subst hk; simp [List.lookup]
      · have : (k == a) = false := by simpa using hk
        simp [List.lookup, this, hk] at ih ⊢
        exact ih
    · by_cases hk : k = a
      · subst hk; simp [List.lookup, ha]
      · have : (k == a) = false := by simpa using hk
        simp [List.lookup, this, ha, ih]

variable (s : State)

@[simp] theorem State.modReq_hasReq (h k : Ref) (f : Request → Request) : (s.modReq h f).hasReq k = s.hasReq k := by
  unfold State.hasReq State.modReq
  rw [lookup_map_modify]
  split <;> simp

/-- A write of a request record changes that record, if it exists, and no other. -/
theorem State.modReq_req (h k : Ref) (f : Request → Request) :
    (s.modReq h f).req k = if k = h ∧ s.hasReq h = true then f (s.req h) else s.req k := by
  unfold State.req State.hasReq State.modReq
  rw [lookup_map_modify]
  by_cases hk : k = h
  · subst hk
    cases hl : s.reqs.lookup k <;> simp
  · simp [hk]

theorem State.modReq_req_same (h : Ref) (f : Request → Request) (he : s.hasReq h = true) :
    (s.modReq h f).req h = f (s.req h) := by simp [State.modReq_req, he]

theorem State.modReq_req_other (h k : Ref) (f : Request → Request) (hk : k ≠ h) :
    (s.modReq h f).req k = s.req k := by simp [State.modReq_req, hk]

/-- A handle of no record reads as a fresh request. -/
theorem State.req_of_not_hasReq (h : Ref) (he : s.hasReq h = false) : s.req h = Request.fresh := by
  unfold State.req State.hasReq at *
  cases hl : s.reqs.lookup h with
  | none => rfl
  | some q => simp [hl] at he

@[simp] theorem State.modReq_handles (h : Ref) (f : Request → Request) :
    (s.modReq h f).reqs.map Prod.fst = s.reqs.map Prod.fst := by
  unfold State.modReq
  simp only [List.map_map]
  congr 1
  funext p
  simp only [Function.comp]
  split <;> rfl

/-- A handle names a record exactly when it is in the table. -/
theorem State.hasReq_iff (h : Ref) : s.hasReq h = true ↔ h ∈ s.reqs.map Prod.fst := by
  unfold State.hasReq
  induction s.reqs with
  | nil => simp
  | cons p rest ih =>
    obtain ⟨a, q⟩ := p
    by_cases hk : h = a
    · subst hk; simp [List.lookup]
    · have : (h == a) = false := by simpa using hk
      simp only [List.lookup, this, ih, List.map_cons, List.mem_cons, hk, false_or]

/-- States with the same table have the same records. -/
theorem State.req_congr {s t : State} (h : t.reqs = s.reqs) (k : Ref) : t.req k = s.req k := by
  unfold State.req; rw [h]

theorem State.hasReq_congr {s t : State} (h : t.reqs.map Prod.fst = s.reqs.map Prod.fst) (k : Ref) :
    t.hasReq k = s.hasReq k := by
  have a := State.hasReq_iff t k
  have b := State.hasReq_iff s k
  rw [h] at a
  cases hs : s.hasReq k <;> cases ht : t.hasReq k <;> simp_all

@[simp] theorem State.modEp_req (i : EpIx) (f : Endpoint → Endpoint) (k : Ref) : (s.modEp i f).req k = s.req k := rfl
@[simp] theorem State.modEp_hasReq (i : EpIx) (f : Endpoint → Endpoint) (k : Ref) :
    (s.modEp i f).hasReq k = s.hasReq k := rfl
@[simp] theorem State.callback_req (c : Callback) (k : Ref) : (s.callback c).req k = s.req k := rfl
@[simp] theorem State.callback_hasReq (c : Callback) (k : Ref) : (s.callback c).hasReq k = s.hasReq k := rfl
@[simp] theorem State.modDev_req (f : Device → Device) (k : Ref) : (s.modDev f).req k = s.req k := rfl
@[simp] theorem State.emit_req (e : Event) (k : Ref) : (s.emit e).req k = s.req k := rfl
@[simp] theorem State.memWrite_req (a : Word) (bs : List Byte) (k : Ref) : (s.memWrite a bs).req k = s.req k := rfl
@[simp] theorem State.draw_req (n : Nat) (k : Ref) : (s.draw n).req k = s.req k := rfl
@[simp] theorem State.setDmaPending_req (i : EpIx) (b : Bool) (k : Ref) : (s.setDmaPending i b).req k = s.req k := rfl
@[simp] theorem State.setEpState_req (i : EpIx) (x : EpState) (k : Ref) : (s.setEpState i x).req k = s.req k := rfl
@[simp] theorem State.setEpState_hasReq (i : EpIx) (x : EpState) (k : Ref) :
    (s.setEpState i x).hasReq k = s.hasReq k := rfl
@[simp] theorem State.modCtl_req (i : EpIx) (f : EpCtl → EpCtl) (k : Ref) : (s.modCtl i f).req k = s.req k := rfl
@[simp] theorem State.modCtl_hasReq (i : EpIx) (f : EpCtl → EpCtl) (k : Ref) :
    (s.modCtl i f).hasReq k = s.hasReq k := rfl
@[simp] theorem State.modSta_req (i : EpIx) (f : EpSta → EpSta) (k : Ref) : (s.modSta i f).req k = s.req k := rfl
@[simp] theorem State.modSta_hasReq (i : EpIx) (f : EpSta → EpSta) (k : Ref) :
    (s.modSta i f).hasReq k = s.hasReq k := rfl
@[simp] theorem State.setRxpend_req (i : EpIx) (b : Bool) (k : Ref) : (s.setRxpend i b).req k = s.req k := rfl
@[simp] theorem State.setRxpend_hasReq (i : EpIx) (b : Bool) (k : Ref) :
    (s.setRxpend i b).hasReq k = s.hasReq k := rfl
@[simp] theorem State.withdrawTx_req (i : EpIx) (k : Ref) : (s.withdrawTx i).req k = s.req k := rfl
@[simp] theorem State.withdrawTx_hasReq (i : EpIx) (k : Ref) :
    (s.withdrawTx i).hasReq k = s.hasReq k := rfl
@[simp] theorem State.handTx_req (i : EpIx) (k : Ref) : (s.handTx i).req k = s.req k := rfl
@[simp] theorem State.handTx_hasReq (i : EpIx) (k : Ref) :
    (s.handTx i).hasReq k = s.hasReq k := rfl
@[simp] theorem State.nextBank_req (i : EpIx) (k : Ref) : (s.nextBank i).req k = s.req k := rfl
@[simp] theorem State.nextBank_hasReq (i : EpIx) (k : Ref) :
    (s.nextBank i).hasReq k = s.hasReq k := rfl
@[simp] theorem State.fifoWrite_req (i : EpIx) (bs : List Byte) (k : Ref) : (s.fifoWrite i bs).req k = s.req k := rfl
@[simp] theorem State.fifoWrite_hasReq (i : EpIx) (bs : List Byte) (k : Ref) :
    (s.fifoWrite i bs).hasReq k = s.hasReq k := rfl
@[simp] theorem State.releaseRx_req (i : EpIx) (k : Ref) : (s.releaseRx i).req k = s.req k := rfl
@[simp] theorem State.releaseRx_hasReq (i : EpIx) (k : Ref) :
    (s.releaseRx i).hasReq k = s.hasReq k := rfl
@[simp] theorem State.maskEpIrq_req (i : EpIx) (k : Ref) : (s.maskEpIrq i).req k = s.req k := rfl
@[simp] theorem State.maskEpIrq_hasReq (i : EpIx) (k : Ref) :
    (s.maskEpIrq i).hasReq k = s.hasReq k := rfl

end Sys2Proof.Machine
end

