-- ==== Sys2Proof/Laws/Frame.lean ====
section
/-! SUPPORT. The frame of every procedure on one endpoint: `EpFrame` is kept by each named update, so each
procedure has it. A claim about an instruction cites the lemma of its procedure. -/

namespace Sys2Proof.Machine

variable {i : EpIx} {hs : List Ref} {s t u : State}

/-! ### Building frames -/

theorem DevFrame.trans {d d' d'' : Device} (a : DevFrame i d d') (b : DevFrame i d' d'') : DevFrame i d d'' :=
  ⟨b.state.trans a.state, b.prevstate.trans a.prevstate, b.addr.trans a.addr, b.selfpowered.trans a.selfpowered,
    b.rwake.trans a.rwake, b.ctrl.trans a.ctrl, b.driver.trans a.driver, b.scratch.trans a.scratch,
    b.pullup.trans a.pullup, b.clkGated.trans a.clkGated,
    fun h => ⟨(b.ep0 h).1.trans (a.ep0 h).1, (b.ep0 h).2.trans (a.ep0 h).2⟩⟩

theorem EpFrame.refl (hq : ∀ h, h ∈ (s.ep i).queue → h ∈ hs) : EpFrame i hs s s where
  cfg := rfl
  nextReq := rfl
  descOwner := rfl
  intEnable := rfl
  devAddr := rfl
  devCtl := rfl
  fnum := rfl
  stack := rfl
  input := rfl
  reqPool := rfl
  dev := ⟨rfl, rfl, rfl, rfl, rfl, rfl, rfl, rfl, rfl, rfl, fun _ => ⟨rfl, rfl⟩⟩
  intPending := rfl
  dmaBits := fun _ _ => rfl
  other := fun _ _ => rfl
  reserved := rfl
  queue := hq
  handles := rfl
  requests := fun _ _ => rfl
  operands := fun _ => ⟨rfl, rfl, rfl, rfl⟩
  callbacks := ⟨[], by simp, by simp⟩
  log := List.prefix_refl _
  draws := Nat.le_refl _

theorem EpFrame.trans (a : EpFrame i hs s t) (b : EpFrame i hs t u) : EpFrame i hs s u where
  cfg := b.cfg.trans a.cfg
  nextReq := b.nextReq.trans a.nextReq
  descOwner := b.descOwner.trans a.descOwner
  intEnable := b.intEnable.trans a.intEnable
  devAddr := b.devAddr.trans a.devAddr
  devCtl := b.devCtl.trans a.devCtl
  fnum := b.fnum.trans a.fnum
  stack := b.stack.trans a.stack
  input := b.input.trans a.input
  reqPool := b.reqPool.trans a.reqPool
  dev := a.dev.trans b.dev
  intPending := by rw [b.intPending, a.intPending]
  dmaBits := fun c hc => (b.dmaBits c hc).trans (a.dmaBits c hc)
  other := fun j hj => (b.other j hj).trans (a.other j hj)
  reserved := b.reserved.trans a.reserved
  queue := b.queue
  handles := b.handles.trans a.handles
  requests := fun h hh => (b.requests h hh).trans (a.requests h hh)
  operands := fun h => ⟨(b.operands h).1.trans (a.operands h).1, (b.operands h).2.1.trans (a.operands h).2.1,
    (b.operands h).2.2.1.trans (a.operands h).2.2.1, (b.operands h).2.2.2.trans (a.operands h).2.2.2⟩
  callbacks := by
    obtain ⟨x, hx, hx'⟩ := a.callbacks
    obtain ⟨y, hy, hy'⟩ := b.callbacks
    refine ⟨x ++ y, by rw [hy, hx, List.append_assoc], fun c hc => ?_⟩
    rcases List.mem_append.mp hc with h | h
    · exact hx' c h
    · exact hy' c h
  log := a.log.trans b.log
  draws := Nat.le_trans a.draws b.draws

theorem EpFrame.modEp (F : EpFrame i hs s t) (f : Endpoint → Endpoint) (hr : (f (t.ep i)).reserved = (t.ep i).reserved)
    (hq : ∀ h, h ∈ (f (t.ep i)).queue → h ∈ (t.ep i).queue) : EpFrame i hs s (t.modEp i f) :=
  { F with
    other := fun j hj => by rw [State.modEp_ep_other _ _ _ _ hj]; exact F.other j hj
    reserved := by rw [State.modEp_ep_same, hr]; exact F.reserved
    queue := fun h hh => by rw [State.modEp_ep_same] at hh; exact F.queue h (hq h hh) }

theorem EpFrame.modReq (F : EpFrame i hs s t) (h : Ref) (hh : h ∈ hs) (f : Request → Request)
    (hf : ∀ q, (f q).buf = q.buf ∧ (f q).len = q.len ∧ (f q).nullpkt = q.nullpkt ∧ (f q).callback = q.callback) :
    EpFrame i hs s (t.modReq h f) :=
  { F with
    handles := by rw [State.modReq_handles]; exact F.handles
    requests := fun k hk => by
      have hne : k ≠ h := fun e => hk (by rw [e]; exact hh)
      rw [State.modReq_req_other _ _ _ _ hne]; exact F.requests k hk
    operands := fun k => by
      rw [State.modReq_req]
      split
      · rename_i e
        obtain ⟨rfl, _⟩ := e
        have a := hf (t.req k)
        have b := F.operands k
        exact ⟨a.1.trans b.1, a.2.1.trans b.2.1, a.2.2.1.trans b.2.2.1, a.2.2.2.trans b.2.2.2⟩
      · exact F.operands k }

theorem EpFrame.callback (F : EpFrame i hs s t) (h : Ref) (hh : h ∈ hs) (r : Result) :
    EpFrame i hs s (t.callback (.done i h r)) :=
  { F with
    callbacks := by
      obtain ⟨x, hx, hx'⟩ := F.callbacks
      refine ⟨x ++ [.done i h r], by simp [State.callback, hx], fun c hc => ?_⟩
      rcases List.mem_append.mp hc with h' | h'
      · exact hx' c h'
      · exact ⟨h, r, by simpa using h', hh⟩ }

theorem EpFrame.emit (F : EpFrame i hs s t) (e : Event) : EpFrame i hs s (t.emit e) :=
  { F with log := F.log.trans (List.prefix_append _ _) }

theorem EpFrame.memWrite (F : EpFrame i hs s t) (a : Word) (bs : List Byte) : EpFrame i hs s (t.memWrite a bs) :=
  { F with }

theorem EpFrame.draw (F : EpFrame i hs s t) (n : Nat) : EpFrame i hs s (t.draw n) :=
  { F with draws := Nat.le_trans F.draws (Nat.le_add_right _ _) }

theorem EpFrame.setDmaPending (F : EpFrame i hs s t) (b : Bool) : EpFrame i hs s (t.setDmaPending i b) :=
  { F with
    intPending := by
      show ({ t.intPending with dma := _ } : IntPending) = _
      rw [F.intPending]; rfl
    dmaBits := fun c hc => by
      have hne : ¬ (i.val = c.val) := fun e => hc (Fin.ext e.symm)
      have hne' : ¬ (c.val = i.val) := fun e => hc (Fin.ext e)
      refine Eq.trans ?_ (F.dmaBits c hc)
      show (if b then t.intPending.dma ||| BitVec.twoPow 16 i.val
        else t.intPending.dma &&& ~~~(BitVec.twoPow 16 i.val)).getLsbD c.val = _
      split
      · simp [hne']
      · simp [hne'] }

theorem EpFrame.setRxpend (F : EpFrame i hs s t) (b : Bool) : EpFrame i hs s (t.setRxpend i b) :=
  let G := F.modEp (fun e => { e with rxpend := b }) rfl (fun _ h => h)
  { G with
    dev := ⟨F.dev.state, F.dev.prevstate, F.dev.addr, F.dev.selfpowered, F.dev.rwake, F.dev.ctrl, F.dev.driver,
      F.dev.scratch, F.dev.pullup, F.dev.clkGated, F.dev.ep0⟩ }

/-- EP0's operations may also write its two fields of the Device record. -/
theorem EpFrame.ep0Dev {hs : List Ref} {s t : State} (F : EpFrame 0 hs s t) (f : Device → Device)
    (hf : DevFrame 0 t.dev (f t.dev)) : EpFrame 0 hs s (t.modDev f) :=
  { F with dev := F.dev.trans hf }

/-! ### Shorthands for the named updates -/

theorem EpFrame.setEpState (F : EpFrame i hs s t) (x : EpState) : EpFrame i hs s (t.setEpState i x) :=
  F.modEp _ rfl fun _ h => h
theorem EpFrame.modCtl (F : EpFrame i hs s t) (f : EpCtl → EpCtl) : EpFrame i hs s (t.modCtl i f) :=
  F.modEp _ rfl fun _ h => h
theorem EpFrame.modSta (F : EpFrame i hs s t) (f : EpSta → EpSta) : EpFrame i hs s (t.modSta i f) :=
  F.modEp _ rfl fun _ h => h
theorem EpFrame.modChan (F : EpFrame i hs s t) (f : DmaChan → DmaChan) : EpFrame i hs s (t.modChan i f) :=
  F.modEp _ rfl fun _ h => h
theorem EpFrame.handTx (F : EpFrame i hs s t) : EpFrame i hs s (t.handTx i) := F.modEp _ rfl fun _ h => h
theorem EpFrame.withdrawTx (F : EpFrame i hs s t) : EpFrame i hs s (t.withdrawTx i) := F.modEp _ rfl fun _ h => h
theorem EpFrame.fifoWrite (F : EpFrame i hs s t) (bs : List Byte) : EpFrame i hs s (t.fifoWrite i bs) :=
  F.modEp _ rfl fun _ h => h
theorem EpFrame.sendTx (F : EpFrame i hs s t) : EpFrame i hs s (t.sendTx i) :=
  (F.emit _).modEp _ rfl fun _ h => h
theorem EpFrame.streamTx (F : EpFrame i hs s t) : EpFrame i hs s (t.streamTx i) :=
  (F.emit _).modEp _ rfl fun _ h => h
theorem EpFrame.nextBank (F : EpFrame i hs s t) : EpFrame i hs s (t.nextBank i) := F.modEp _ rfl fun _ h => h
theorem EpFrame.releaseRx (F : EpFrame i hs s t) : EpFrame i hs s (t.releaseRx i) := F.modEp _ rfl fun _ h => h
theorem EpFrame.discardSetup (F : EpFrame i hs s t) (n : Nat) : EpFrame i hs s (t.discardSetup i n) :=
  F.modEp _ rfl fun _ h => h
theorem EpFrame.maskEpIrq (F : EpFrame i hs s t) : EpFrame i hs s (t.maskEpIrq i) := F.modEp _ rfl fun _ h => h
theorem EpFrame.unmaskEpIrq (F : EpFrame i hs s t) : EpFrame i hs s (t.unmaskEpIrq i) := by
  unfold State.unmaskEpIrq
  split <;> exact F.modEp _ rfl fun _ h => h
theorem EpFrame.ackTxdone (F : EpFrame i hs s t) : EpFrame i hs s (t.ackTxdone i) := F.modSta _
theorem EpFrame.ackStallsent (F : EpFrame i hs s t) : EpFrame i hs s (t.ackStallsent i) := F.modSta _
theorem EpFrame.ackSetup (F : EpFrame i hs s t) : EpFrame i hs s (t.ackSetup i) := F.modSta _
theorem EpFrame.fifoReadRx (F : EpFrame i hs s t) (n : Nat) : EpFrame i hs s (t.fifoReadRx i n).2 :=
  (F.modEp _ rfl fun _ h => h).draw _
theorem EpFrame.peekMem (F : EpFrame i hs s t) {h : Ref} (e : t.peek i = some h) : h ∈ hs := by
  refine F.queue h ?_
  unfold State.peek at e
  exact List.mem_of_mem_head? (by simp [e])

/-! ### The queue -/

theorem EpFrame.complete (F : EpFrame i hs s t) (r : Result) : EpFrame i hs s (t.complete i r) := by
  unfold State.complete
  split
  · exact F
  · rename_i h rest e
    have hh : h ∈ hs := F.queue h (by rw [e]; simp)
    refine EpFrame.callback ?_ h hh r
    refine EpFrame.modReq ?_ h hh _ fun _ => ⟨rfl, rfl, rfl, rfl⟩
    exact F.modEp _ rfl fun k hk => by rw [e]; exact List.mem_cons_of_mem _ hk

theorem EpFrame.completeEach (r : Result) (l : List Ref) {t : State} (F : EpFrame i hs s t) :
    EpFrame i hs s (completeEach i r l t) := by
  induction l generalizing t with
  | nil => exact F
  | cons _ rest ih => exact ih (F.complete r)

theorem EpFrame.drain (F : EpFrame i hs s t) (r : Result) : EpFrame i hs s (t.drain i r) := F.completeEach r _

theorem EpFrame.cancelAll (F : EpFrame i hs s t) (r : Result) : EpFrame i hs s (t.cancelAll i r) :=
  (F.drain r).modEp _ rfl fun _ h => h

theorem EpFrame.postCancel (F : EpFrame i hs s t) : EpFrame i hs s (t.postCancel i) :=
  EpFrame.withdrawTx (F.modEp _ rfl fun _ h => h)

/-! ### DMA -/

theorem EpFrame.scrambleSlice (F : EpFrame i hs s t) : EpFrame i hs s (t.scrambleSlice i) := by
  unfold State.scrambleSlice
  dsimp only
  split
  · exact (((F.memWrite _ _).draw _).modEp _ rfl fun _ h => h).draw _
  · exact F

theorem EpFrame.moveSlice (F : EpFrame i hs s t) (k : Nat) : EpFrame i hs s (t.moveSlice i k) := by
  unfold State.moveSlice
  dsimp only
  split
  · split
    · exact (F.fifoWrite _).streamTx
    · exact (F.fifoReadRx k).memWrite _ _
  · exact F

theorem EpFrame.dmaStop (F : EpFrame i hs s t) : EpFrame i hs s (t.dmaStop i) := by
  unfold State.dmaStop
  dsimp only
  have G := (F.scrambleSlice.modEp (fun e =>
    { e with
      chan := { e.chan with en := false, ie := false, eob := false, eoc := false, err := false, running := false }
      dmaBusy := false }) rfl fun _ h => h).setDmaPending false
  split
  · exact G
  · rename_i h e
    exact G.modReq h (G.peekMem e) _ fun _ => ⟨rfl, rfl, rfl, rfl⟩

theorem EpFrame.dmaStopIfBusy (F : EpFrame i hs s t) : EpFrame i hs s (t.dmaStopIfBusy i) := by
  unfold State.dmaStopIfBusy
  split
  · exact F.dmaStop
  · exact F

theorem EpFrame.dmaSlice (F : EpFrame i hs s t) : EpFrame i hs s (t.dmaSlice i) := by
  unfold State.dmaSlice
  split
  · exact F
  · rename_i h e
    have hh := F.peekMem e
    dsimp only
    refine EpFrame.modEp ?_ _ rfl fun _ h => h
    refine EpFrame.modReq ?_ h hh _ fun _ => ⟨rfl, rfl, rfl, rfl⟩
    split
    · exact F.emit _
    · exact F

theorem EpFrame.dmaZlp (F : EpFrame i hs s t) {h : Ref} (hh : h ∈ hs) : EpFrame i hs s (t.dmaZlp i h) := by
  unfold State.dmaZlp
  refine EpFrame.setEpState (EpFrame.nextBank (EpFrame.modCtl (EpFrame.handTx ?_) _)) _
  exact (F.fifoWrite []).modReq h hh _ fun _ => ⟨rfl, rfl, rfl, rfl⟩

theorem EpFrame.dmaStartLoop (k : Nat) {t : State} (F : EpFrame i hs s t) : EpFrame i hs s (dmaStartLoop i k t) := by
  induction k generalizing t with
  | zero => exact F
  | succ k ih =>
    unfold Machine.dmaStartLoop
    split
    · exact F
    · rename_i h e
      split
      · split
        · exact F.dmaZlp (F.peekMem e)
        · exact ih ((F.complete .ok).setEpState .idle)
      · exact (F.setEpState _).dmaSlice

theorem EpFrame.dmaStart (F : EpFrame i hs s t) : EpFrame i hs s (t.dmaStart i).2 := by
  unfold State.dmaStart
  split
  · exact F
  · exact EpFrame.dmaStartLoop _ F

/-! ### The packet copier -/

theorem EpFrame.sendPacket (F : EpFrame i hs s t) {h : Ref} (hh : h ∈ hs) : EpFrame i hs s (t.sendPacket i h) := by
  unfold State.sendPacket
  dsimp only
  refine EpFrame.setEpState (EpFrame.nextBank (EpFrame.handTx ?_)) _
  refine EpFrame.modReq (EpFrame.fifoWrite ?_ _) h hh _ fun _ => ⟨rfl, rfl, rfl, rfl⟩
  exact F.modEp _ rfl fun _ h => h

theorem EpFrame.countSent (F : EpFrame i hs s t) {h : Ref} (hh : h ∈ hs) : EpFrame i hs s (t.countSent h) :=
  F.modReq h hh _ fun _ => ⟨rfl, rfl, rfl, rfl⟩

theorem EpFrame.oweZlp (F : EpFrame i hs s t) (h : Ref) : EpFrame i hs s (t.oweZlp i h) := by
  unfold State.oweZlp
  split
  · exact F.modEp _ rfl fun _ h => h
  · exact F

theorem EpFrame.writeLoop (k : Nat) {t : State} (F : EpFrame i hs s t) : EpFrame i hs s (writeLoop i k t) := by
  induction k generalizing t with
  | zero => exact F
  | succ k ih =>
    unfold Machine.writeLoop
    split
    · exact F.setEpState _
    · rename_i h e
      have hh := F.peekMem e
      dsimp only
      have G := (F.countSent hh).oweZlp h
      split
      · exact G.sendPacket hh
      · exact ih (G.complete .ok)

theorem EpFrame.writeProcess (F : EpFrame i hs s t) : EpFrame i hs s (t.writeProcess i) := EpFrame.writeLoop _ F

theorem EpFrame.readBank (F : EpFrame i hs s t) {h : Ref} (hh : h ∈ hs) : EpFrame i hs s (t.readBank i h) := by
  unfold State.readBank
  dsimp only
  refine EpFrame.nextBank (EpFrame.releaseRx ?_)
  exact EpFrame.modReq ((F.fifoReadRx _).memWrite _ _) h hh _ fun _ => ⟨rfl, rfl, rfl, rfl⟩

theorem EpFrame.readLoop (k : Nat) {t : State} (F : EpFrame i hs s t) : EpFrame i hs s (readLoop i k t) := by
  induction k generalizing t with
  | zero => exact F
  | succ k ih =>
    unfold Machine.readLoop
    split
    · exact F.setEpState _
    · rename_i h e
      have hh := F.peekMem e
      split
      · exact ih (F.complete .ok)
      · dsimp only
        split
        · have G := (((F.setEpState .receiving).setRxpend false).modCtl
            (fun c => { c with rxrdyIe := true })).readBank hh
          split
          · exact ih ((G.complete .ok).setEpState .idle)
          · exact G
        · exact F.setEpState _

theorem EpFrame.readStart (F : EpFrame i hs s t) : EpFrame i hs s (t.readStart i) := EpFrame.readLoop _ F

theorem EpFrame.readPacket (F : EpFrame i hs s t) : EpFrame i hs s (t.readPacket i) := by
  unfold State.readPacket
  split
  · exact F
  · rename_i h e
    dsimp only
    have G := F.readBank (F.peekMem e)
    split
    · exact ((G.complete .ok).setEpState .idle).readStart
    · exact G

theorem EpFrame.startTransfer (F : EpFrame i hs s t) : EpFrame i hs s (t.startTransfer i) := by
  unfold State.startTransfer
  split
  · exact F
  · split
    · exact F.dmaStart
    · split
      · exact F.writeProcess
      · exact F.readStart

/-! ### The endpoint procedures -/

theorem EpFrame.disableEp (F : EpFrame i hs s t) : EpFrame i hs s (t.disableEp i) := by
  unfold State.disableEp
  dsimp only
  have G := (((F.maskEpIrq.dmaStopIfBusy.cancelAll .shutdown).modEp (fun e =>
    { e with
      state := .disabled, stalled := false, halted := false, txnullpkt := false
      ctl := { e.ctl with enable := false, forcestall := false } }) rfl fun _ h => h).setRxpend false).withdrawTx
  split
  · rename_i h0
    subst h0
    exact G.ep0Dev _ ⟨rfl, rfl, rfl, rfl, rfl, rfl, rfl, rfl, rfl, rfl, fun e => absurd rfl e⟩
  · exact G

theorem EpFrame.dropInflight (F : EpFrame i hs s t) : EpFrame i hs s (t.dropInflight i) := by
  unfold State.dropInflight
  split
  · exact F
  · rename_i h e
    exact F.modReq h (F.peekMem e) _ fun _ => ⟨rfl, rfl, rfl, rfl⟩

theorem EpFrame.stallEp (F : EpFrame i hs s t) : EpFrame i hs s (t.stallEp i) := by
  have tail : ∀ {v : State}, EpFrame i hs s v → EpFrame i hs s
      ((((if i = 0 then v.modDev fun d => { d with scratchCount := 0, pendingAddr := 0 } else v).modEp i
        fun e => { e with txnullpkt := false }).withdrawTx i).modEp i fun e =>
        { e with state := .stalled, stalled := true, ctl := { e.ctl with forcestall := true } }) := by
    intro v G
    refine EpFrame.modEp (EpFrame.withdrawTx (EpFrame.modEp ?_ _ rfl fun _ h => h)) _ rfl fun _ h => h
    split
    · rename_i h0
      subst h0
      exact G.ep0Dev _ ⟨rfl, rfl, rfl, rfl, rfl, rfl, rfl, rfl, rfl, rfl, fun e => absurd rfl e⟩
    · exact G
  unfold State.stallEp
  split
  · exact F
  · exact F
  · dsimp only
    apply tail
    split
    · exact (F.dmaStopIfBusy.dropInflight).complete .ioError
    · exact F

theorem EpFrame.resumeEp (F : EpFrame i hs s t) : EpFrame i hs s (t.resumeEp i) := by
  unfold State.resumeEp
  split
  · exact EpFrame.startTransfer (F.modEp _ rfl fun _ h => h)
  · exact F

theorem EpFrame.programEp (F : EpFrame i hs s t) (d : EpDesc) : EpFrame i hs s (t.programEp i d) := by
  unfold State.programEp
  dsimp only
  exact ((F.modEp _ rfl fun _ h => h).setRxpend false).unmaskEpIrq.setEpState .idle

theorem EpFrame.completeAndStart (F : EpFrame i hs s t) (r : Result) : EpFrame i hs s (t.completeAndStart i r) :=
  ((F.complete r).setEpState .idle).startTransfer

theorem EpFrame.resetEp (F : EpFrame i hs s t) : EpFrame i hs s (t.resetEp i) := by
  unfold State.resetEp
  dsimp only
  exact (((F.maskEpIrq.dmaStopIfBusy.cancelAll .shutdown).modEp _ rfl fun _ h => h).setRxpend false).withdrawTx

theorem EpFrame.haltEp (F : EpFrame i hs s t) : EpFrame i hs s (t.haltEp i) := by
  unfold State.haltEp
  split
  · exact F
  · dsimp only
    split
    · exact F.stallEp.modEp _ rfl fun _ h => h
    · exact F.stallEp

/-! ### The handlers of one endpoint -/

theorem EpFrame.eocIncomplete (F : EpFrame i hs s t) : EpFrame i hs s (t.eocIncomplete i) := by
  unfold State.eocIncomplete
  split
  · exact F
  · exact F.completeAndStart .ok

theorem EpFrame.countSlice (F : EpFrame i hs s t) {h : Ref} (hh : h ∈ hs) (k : Len) :
    EpFrame i hs s (t.countSlice i h k) := by
  unfold State.countSlice
  dsimp only
  refine EpFrame.modReq ?_ h hh _ fun _ => ⟨rfl, rfl, rfl, rfl⟩
  split
  · exact F
  · exact F.emit _

theorem EpFrame.dmaCheck (F : EpFrame i hs s t) (h : Ref) : EpFrame i hs s (t.dmaCheck i h) := by
  unfold State.dmaCheck
  split
  · exact F.completeAndStart .ok
  · exact F.eocIncomplete

theorem EpFrame.dmaInterrupt (F : EpFrame i hs s t) : EpFrame i hs s (t.dmaInterrupt i) := by
  unfold State.dmaInterrupt
  dsimp only
  have G := (F.scrambleSlice.modEp (fun e =>
    { e with
      chan := { e.chan with eob := false, eoc := false, err := false, en := false, running := false }
      dmaBusy := false }) rfl fun _ h => h).setDmaPending false
  split
  · exact G
  · rename_i h e
    have hh := G.peekMem e
    split
    · exact G
    · split
      · split
        · exact (G.countSlice hh _).dmaSlice
        · exact (G.countSlice hh _).dmaCheck h
      · split
        · exact (G.countSlice hh _).dmaCheck h
        · exact G.completeAndStart .ioError

theorem EpFrame.holdRx (F : EpFrame i hs s t) : EpFrame i hs s (t.holdRx i) := (F.setRxpend true).modCtl _

theorem EpFrame.stallSent (F : EpFrame i hs s t) : EpFrame i hs s (t.stallSent i) := by
  unfold State.stallSent
  split
  · exact F
  · dsimp only
    split
    · exact (F.modCtl _).dmaStopIfBusy.completeAndStart .ioError
    · exact F.modCtl _

end Sys2Proof.Machine
end

