-- ==== Sys2Proof/Laws/Memory.lean ====
section
/-! SUPPORT. The laws of system memory: a read after a write, the canonical form kept by every memory operation,
and the bytes of numbers. -/

namespace Sys2Proof.Machine

/-! ### Read after write -/

theorem readByte_writeByte_same (m : Memory) (a : Nat) (b : Byte) (h : Memory.wf m = true) :
    readByte (writeByte m a b) a = b := by
  have key : ∀ m : Memory, Memory.wf m = true → (∀ k v rest, m = (k, v) :: rest → a < k) →
      readByte m a = memDefault := by
    intro m
    induction m with
    | nil => intros; rfl
    | cons p rest ih =>
      intro hw hlt
      obtain ⟨k, v⟩ := p
      have hk := hlt k v rest rfl
      have : k ≠ a := by omega
      simp only [readByte, if_neg this]
      cases rest with
      | nil => rfl
      | cons p' rest' =>
        obtain ⟨k', v'⟩ := p'
        simp only [Memory.wf, Bool.and_eq_true, decide_eq_true_eq] at hw
        exact ih hw.2 (by intro k'' v'' r'' he; cases he; omega)
  have tailWf : ∀ (p : Host.Cell) (rest : Memory), Memory.wf (p :: rest) = true →
      Memory.wf rest = true ∧ ∀ k v r, rest = (k, v) :: r → p.1 < k := by
    intro p rest hw
    cases rest with
    | nil => exact ⟨rfl, by simp⟩
    | cons p' rest' =>
      simp only [Memory.wf, Bool.and_eq_true, decide_eq_true_eq] at hw
      exact ⟨hw.2, by rintro k v r ⟨⟩; exact hw.1.2⟩
  induction m with
  | nil => by_cases hb : b = memDefault <;> simp [writeByte, readByte, hb]
  | cons p rest ih =>
    obtain ⟨k, v⟩ := p
    have ht := tailWf _ _ h
    simp only [writeByte]
    split
    · rename_i hlt
      split
      · rename_i hb; rw [hb]; exact key _ h (by rintro _ _ _ ⟨⟩; exact hlt)
      · simp [readByte]
    · split
      · rename_i heq
        subst heq
        split
        · rename_i hb; rw [hb]; exact key _ ht.1 ht.2
        · simp [readByte]
      · rename_i hne
        have : k ≠ a := fun e => hne e.symm
        simp only [readByte, if_neg this]
        exact ih ht.1

theorem readByte_writeByte_other (m : Memory) (a x : Nat) (b : Byte) (h : x ≠ a) :
    readByte (writeByte m a b) x = readByte m x := by
  induction m with
  | nil =>
    by_cases hb : b = memDefault
    · simp [writeByte, readByte, hb]
    · simp [writeByte, readByte, hb, Ne.symm h]
  | cons p rest ih =>
    obtain ⟨k, v⟩ := p
    simp only [writeByte]
    split
    · split
      · rfl
      · simp [readByte, Ne.symm h]
    · split
      · rename_i heq
        subst heq
        split <;> simp [readByte, Ne.symm h]
      · simp only [readByte]
        split
        · rfl
        · exact ih

/-- `MemWrite` leaves every byte outside the written ones. -/
theorem readByte_writeBytes_other (bs : List Byte) (m : Memory) (base : Word) (x : Nat)
    (h : ∀ k, k < bs.length → x ≠ (base + BitVec.ofNat 32 k).toNat) :
    readByte (writeBytes m base bs) x = readByte m x := by
  induction bs generalizing m base with
  | nil => rfl
  | cons b rest ih =>
    simp only [writeBytes]
    rw [ih]
    · refine readByte_writeByte_other _ _ _ _ ?_
      have := h 0 (by simp)
      simpa using this
    · intro k hk
      have := h (k + 1) (by simp; omega)
      have e : base + 1 + BitVec.ofNat 32 k = base + BitVec.ofNat 32 (k + 1) := by
        apply BitVec.eq_of_toNat_eq; simp [BitVec.toNat_add, BitVec.toNat_ofNat]; omega
      rw [e]; exact this

/-! ### The canonical form -/

/-- The form from an address below every entry. -/
theorem Memory.wf_cons (k : Nat) (v : Byte) (rest : Memory) :
    Memory.wf ((k, v) :: rest) = true ↔
      v ≠ memDefault ∧ k < 2 ^ 32 ∧ Memory.wf rest = true ∧ ∀ k' v' r, rest = (k', v') :: r → k < k' := by
  have bound : ∀ (m : Memory) (k' : Nat) (v' : Byte) (r : Memory), m = (k', v') :: r → Memory.wf m = true →
      k' < 2 ^ 32 := by
    intro m
    induction m with
    | nil => intro _ _ _ h; cases h
    | cons p rest ih =>
      rintro k' v' r ⟨⟩ hw
      cases rest with
      | nil => simp only [Memory.wf, Bool.and_eq_true, decide_eq_true_eq] at hw; exact hw.1
      | cons p'' r'' =>
        obtain ⟨k'', v''⟩ := p''
        simp only [Memory.wf, Bool.and_eq_true, decide_eq_true_eq] at hw
        have := ih k'' v'' r'' rfl hw.2
        omega
  cases rest with
  | nil => simp [Memory.wf, and_comm]
  | cons p' r' =>
    obtain ⟨k', v'⟩ := p'
    constructor
    · intro hw
      simp only [Memory.wf, Bool.and_eq_true, decide_eq_true_eq] at hw
      have hk := bound _ k' v' r' rfl hw.2
      exact ⟨hw.1.1, by omega, hw.2, by rintro _ _ _ ⟨⟩; exact hw.1.2⟩
    · rintro ⟨h1, _, h3, h4⟩
      simp only [Memory.wf, Bool.and_eq_true, decide_eq_true_eq]
      exact ⟨⟨h1, h4 _ _ _ rfl⟩, h3⟩

/-- The first address after a write is the old first address or the written one. -/
theorem writeByte_head (m : Memory) (a : Nat) (b : Byte) (k : Nat) (hk : k < a)
    (hm : ∀ k' v' r, m = (k', v') :: r → k < k') (hw : Memory.wf m = true) :
    ∀ k' v' r, writeByte m a b = (k', v') :: r → k < k' := by
  intro k' v' r
  cases m with
  | nil =>
    simp only [writeByte]
    split
    · intro h; cases h
    · rintro ⟨⟩; exact hk
  | cons p rest =>
    obtain ⟨k1, v1⟩ := p
    have h1 := hm k1 v1 rest rfl
    have hw' := (Memory.wf_cons _ _ _).mp hw
    simp only [writeByte]
    split
    · split
      · rintro ⟨⟩; exact h1
      · rintro ⟨⟩; exact hk
    · split
      · split
        · intro h; exact Nat.lt_trans h1 (hw'.2.2.2 _ _ _ h)
        · rintro ⟨⟩; exact hk
      · rintro ⟨⟩; exact h1

/-- Writing a byte keeps the canonical form. -/
theorem writeByte_wf (m : Memory) (a : Nat) (b : Byte) (ha : a < 2 ^ 32) (h : Memory.wf m = true) :
    Memory.wf (writeByte m a b) = true := by
  induction m with
  | nil =>
    simp only [writeByte]
    split
    · rfl
    · rename_i hb
      exact (Memory.wf_cons _ _ _).mpr ⟨hb, ha, rfl, by intro _ _ _ h; cases h⟩
  | cons p rest ih =>
    obtain ⟨k, v⟩ := p
    have hc := (Memory.wf_cons _ _ _).mp h
    simp only [writeByte]
    split
    · rename_i hlt
      split
      · exact h
      · rename_i hb
        exact (Memory.wf_cons _ _ _).mpr ⟨hb, ha, h, by rintro _ _ _ ⟨⟩; exact hlt⟩
    · rename_i hge
      split
      · rename_i heq
        subst heq
        split
        · exact hc.2.2.1
        · rename_i hb
          exact (Memory.wf_cons _ _ _).mpr ⟨hb, ha, hc.2.2.1, hc.2.2.2⟩
      · rename_i hne
        exact (Memory.wf_cons _ _ _).mpr ⟨hc.1, hc.2.1, ih hc.2.2.1,
          writeByte_head rest a b k (by omega) hc.2.2.2 hc.2.2.1⟩

/-- `MemWrite` keeps the canonical form. -/
theorem writeBytes_wf (bs : List Byte) (m : Memory) (base : Word) (h : Memory.wf m = true) :
    Memory.wf (writeBytes m base bs) = true := by
  induction bs generalizing m base with
  | nil => exact h
  | cons b rest ih => exact ih _ _ (writeByte_wf m _ b base.isLt h)

/-- The memory right after reset has the canonical form. -/
theorem reset_mem_wf : Memory.wf State.reset.mem = true := rfl

/-- Two canonical memories that read alike at every address are the same list. -/
theorem Memory.eq_of_readByte (m m' : Memory) (h : Memory.wf m = true) (h' : Memory.wf m' = true)
    (e : ∀ a, readByte m a = readByte m' a) : m = m' := by
  have low : ∀ (m : Memory) (a : Nat), Memory.wf m = true → (∀ k v r, m = (k, v) :: r → a < k) →
      readByte m a = memDefault := by
    intro m
    induction m with
    | nil => intros; rfl
    | cons p rest ih =>
      intro a hw hlt
      obtain ⟨k, v⟩ := p
      have hk := hlt k v rest rfl
      have hc := (Memory.wf_cons _ _ _).mp hw
      simp only [readByte, if_neg (show k ≠ a by omega)]
      exact ih a hc.2.2.1 fun k' v' r he => Nat.lt_trans hk (hc.2.2.2 k' v' r he)
  induction m generalizing m' with
  | nil =>
    cases m' with
    | nil => rfl
    | cons p r =>
      obtain ⟨k, v⟩ := p
      have := e k
      simp only [readByte, if_true] at this
      exact absurd this.symm ((Memory.wf_cons _ _ _).mp h').1
  | cons p r ih =>
    obtain ⟨k, v⟩ := p
    have hc := (Memory.wf_cons _ _ _).mp h
    cases m' with
    | nil =>
      have := e k
      simp only [readByte, if_true] at this
      exact absurd this hc.1
    | cons p' r' =>
      obtain ⟨k', v'⟩ := p'
      have hc' := (Memory.wf_cons _ _ _).mp h'
      have hkk : k = k' := by
        rcases Nat.lt_trichotomy k k' with hl | hl | hl
        · have h1 := e k
          rw [low _ k h' (by rintro _ _ _ ⟨⟩; exact hl)] at h1
          simp only [readByte, if_true] at h1
          exact absurd h1 hc.1
        · exact hl
        · have h1 := e k'
          rw [low _ k' h (by rintro _ _ _ ⟨⟩; exact hl)] at h1
          simp only [readByte, if_true] at h1
          exact absurd h1.symm hc'.1
      subst hkk
      have hv : v = v' := by have := e k; simpa [readByte] using this
      subst hv
      rw [ih r' hc.2.2.1 hc'.2.2.1]
      intro a
      by_cases ha : k = a
      · subst ha
        rw [low r k hc.2.2.1 hc.2.2.2, low r' k hc'.2.2.1 hc'.2.2.2]
      · have := e a
        simpa [readByte, ha] using this

/-! ### Bytes of numbers -/

@[simp] theorem bytesOfNat_length (n x : Nat) : (bytesOfNat n x).length = n := by
  induction n generalizing x with
  | zero => rfl
  | succ n ih => simp [bytesOfNat, ih]

/-- The bytes of a number below 256^n spell it. -/
theorem natOfBytes_bytesOfNat (n x : Nat) (h : x < 256 ^ n) : natOfBytes (bytesOfNat n x) = x := by
  induction n generalizing x with
  | zero => simp at h; subst h; rfl
  | succ n ih =>
    have hx : x / 256 < 256 ^ n := by
      rw [Nat.div_lt_iff_lt_mul (by decide)]; rw [Nat.pow_succ] at h; exact h
    simp only [bytesOfNat, natOfBytes, ih _ hx]
    simp [BitVec.toNat_ofNat]; omega

/-- A taken prefix of exactly its length. -/
theorem takeBytes_append (a b : List Byte) : takeBytes a.length (a ++ b) = some (a, b) := by
  simp [takeBytes]

@[simp] theorem readBytes_length (m : Memory) (a : Word) (n : Nat) : (readBytes m a n).length = n := by
  induction n generalizing a with
  | zero => rfl
  | succ n ih => simp [readBytes, ih]

@[simp] theorem freeFrom_length (k n : Nat) : (freeFrom k n).length = n := by
  induction n generalizing k with
  | zero => rfl
  | succ n ih => simp [freeFrom, ih]

/-- A bank read of `n` bytes is `n` bytes. -/
theorem State.bankBytes_length (s : State) (bank : List Byte) (n : Nat) : (s.bankBytes bank n).length = n := by
  simp [State.bankBytes, State.freeBytes]; omega

/-- A bank that holds `n` bytes gives its first `n`. -/
theorem State.bankBytes_of_le (s : State) (bank : List Byte) (n : Nat) (h : n ≤ bank.length) :
    s.bankBytes bank n = bank.take n := by
  simp [State.bankBytes, State.freeBytes, Nat.sub_eq_zero_of_le h, freeFrom]

end Sys2Proof.Machine
end

