-- ==== Sys2Proof/Laws/Queue.lean ====
section
/-! SUPPORT. What completing requests does, said once: `complete` (R171), the draining of a whole queue (R172) and
`cancel_all`. -/

namespace Sys2Proof.Machine

variable (s : State) (i : EpIx) (r : Result)

/-- A request as `complete` leaves it (R171). -/
theorem State.complete_nil (h : (s.ep i).queue = []) : s.complete i r = s := by
  unfold State.complete; rw [h]

theorem State.complete_cons {h : Ref} {rest : List Ref} (e : (s.ep i).queue = h :: rest) :
    s.complete i r =
      ((s.modEp i fun e => { e with queue := rest }).modReq h
        fun q => { q with result := some r, inflight := 0, owner := .driver }).callback (.done i h r) := by
  unfold State.complete; rw [e]

@[simp] theorem State.complete_mem : (s.complete i r).mem = s.mem := by unfold State.complete; split <;> rfl
@[simp] theorem State.complete_cfg : (s.complete i r).cfg = s.cfg := by unfold State.complete; split <;> rfl
@[simp] theorem State.complete_dev : (s.complete i r).dev = s.dev := by unfold State.complete; split <;> rfl
@[simp] theorem State.complete_intPending : (s.complete i r).intPending = s.intPending := by
  unfold State.complete; split <;> rfl
@[simp] theorem State.complete_log : (s.complete i r).log = s.log := by unfold State.complete; split <;> rfl
@[simp] theorem State.complete_draws : (s.complete i r).draws = s.draws := by unfold State.complete; split <;> rfl
@[simp] theorem State.complete_ret : (s.complete i r).ret = s.ret := by unfold State.complete; split <;> rfl
@[simp] theorem State.complete_hasReq (k : Ref) : (s.complete i r).hasReq k = s.hasReq k := by
  unfold State.complete; split <;> simp

/-- `complete` takes the head off the queue and leaves the rest of the endpoint. -/
theorem State.complete_ep_same : (s.complete i r).ep i = { s.ep i with queue := (s.ep i).queue.tail } := by
  cases hq : (s.ep i).queue with
  | nil => rw [State.complete_nil s i r hq]; simp only [List.tail_nil]; rw [← hq]
  | cons h rest => rw [State.complete_cons s i r hq]; simp

theorem State.complete_ep_other (j : EpIx) (h : j ≠ i) : (s.complete i r).ep j = s.ep j := by
  unfold State.complete
  split
  · rfl
  · simp [h]

/-- What draining a queue of handles `l` leaves: the whole of it. -/
theorem completeEach_spec (l : List Ref) (s : State) (hl : (s.ep i).queue = l) :
    let t := completeEach i r l s
    t.ep i = { s.ep i with queue := [] } ∧ (∀ j, j ≠ i → t.ep j = s.ep j) ∧
    t.cbList = s.cbList ++ l.map (fun h => .done i h r) ∧
    (∀ k, t.req k = if k ∈ l ∧ s.hasReq k = true
      then { s.req k with result := some r, inflight := 0, owner := .driver } else s.req k) ∧
    t.reqs.map Prod.fst = s.reqs.map Prod.fst ∧
    t = { s with eps := t.eps, reqs := t.reqs, cbList := t.cbList } := by
  induction l generalizing s with
  | nil => refine ⟨?_, fun _ _ => rfl, by simp [completeEach], fun k => by simp [completeEach], rfl, rfl⟩
           show s.ep i = _
           rw [← hl]
  | cons h rest ih =>
    dsimp only
    have e := State.complete_cons s i r hl
    have hq : ((s.complete i r).ep i).queue = rest := by rw [State.complete_ep_same, hl]; rfl
    obtain ⟨h1, h2, h3, h4, h5, h6⟩ := ih (s.complete i r) hq
    have hd : completeEach i r (h :: rest) s = completeEach i r rest (s.complete i r) := rfl
    rw [hd]
    refine ⟨?_, ?_, ?_, ?_, ?_, ?_⟩
    · rw [h1, State.complete_ep_same]
    · intro j hj; rw [h2 j hj, State.complete_ep_other _ _ _ _ hj]
    · rw [h3, e]; simp [State.callback]
    · intro k
      rw [h4 k, State.complete_hasReq]
      have hk : (s.complete i r).req k = if k = h ∧ s.hasReq h = true
          then { s.req h with result := some r, inflight := 0, owner := .driver } else s.req k := by
        rw [e]; simp only [State.callback_req]; rw [State.modReq_req]; rfl
      rw [hk]
      by_cases hkh : k = h
      · subst hkh
        by_cases hr : s.hasReq k = true <;> simp [hr]
      · simp [hkh]
    · rw [h5, e]; simp
    · rw [h6, e]; rfl

/-- Draining a queue completes every request of it, head first, and leaves it empty (R172). -/
theorem State.drain_spec :
    (s.drain i r).ep i = { s.ep i with queue := [] } ∧ (∀ j, j ≠ i → (s.drain i r).ep j = s.ep j) ∧
    (s.drain i r).cbList = s.cbList ++ (s.ep i).queue.map (fun h => .done i h r) ∧
    (∀ k, (s.drain i r).req k = if k ∈ (s.ep i).queue ∧ s.hasReq k = true
      then { s.req k with result := some r, inflight := 0, owner := .driver } else s.req k) ∧
    (s.drain i r).reqs.map Prod.fst = s.reqs.map Prod.fst ∧
    s.drain i r = { s with eps := (s.drain i r).eps, reqs := (s.drain i r).reqs, cbList := (s.drain i r).cbList } :=
  completeEach_spec i r _ s rfl

@[simp] theorem State.drain_ep_same : (s.drain i r).ep i = { s.ep i with queue := [] } := (s.drain_spec i r).1
theorem State.drain_ep_other (j : EpIx) (h : j ≠ i) : (s.drain i r).ep j = s.ep j := (s.drain_spec i r).2.1 j h
@[simp] theorem State.drain_mem : (s.drain i r).mem = s.mem := by rw [(s.drain_spec i r).2.2.2.2.2]
@[simp] theorem State.drain_cfg : (s.drain i r).cfg = s.cfg := by rw [(s.drain_spec i r).2.2.2.2.2]
@[simp] theorem State.drain_dev : (s.drain i r).dev = s.dev := by rw [(s.drain_spec i r).2.2.2.2.2]

@[simp] theorem State.cancelAll_mem : (s.cancelAll i r).mem = s.mem := by unfold State.cancelAll; simp
@[simp] theorem State.postCancel_mem : (s.postCancel i).mem = s.mem := rfl

/-- `cancel_all` empties the queue and forgets an owed zero-length packet (R172). -/
theorem State.cancelAll_ep_same :
    (s.cancelAll i r).ep i = { s.ep i with queue := [], txnullpkt := false } := by
  unfold State.cancelAll; simp

end Sys2Proof.Machine
end

