-- ==== Sys2Proof/Laws/MemFrame.lean ====
section
/-! SUPPORT. Which bytes of memory each procedure can store, and that each keeps the memory's canonical form. Only
three do store: stopping or moving a DMA slice, and reading a received packet into a request's buffer. -/

namespace Sys2Proof.Machine

variable (s : State) (i : EpIx)

/-! ### Procedures that store nothing -/

@[simp] theorem State.dmaSlice_mem : (s.dmaSlice i).mem = s.mem := by
  unfold State.dmaSlice
  split
  · rfl
  · dsimp only
    split <;> rfl

@[simp] theorem State.dmaZlp_mem (h : Ref) : (s.dmaZlp i h).mem = s.mem := rfl

@[simp] theorem dmaStartLoop_mem (k : Nat) : (dmaStartLoop i k s).mem = s.mem := by
  induction k generalizing s with
  | zero => rfl
  | succ k ih =>
    unfold dmaStartLoop
    split
    · rfl
    · split
      · split
        · rfl
        · rw [ih]; simp
      · simp

@[simp] theorem State.dmaStart_mem : (s.dmaStart i).2.mem = s.mem := by
  unfold State.dmaStart
  split <;> simp

@[simp] theorem State.sendPacket_mem (h : Ref) : (s.sendPacket i h).mem = s.mem := rfl

@[simp] theorem State.countSent_mem (h : Ref) : (s.countSent h).mem = s.mem := rfl

@[simp] theorem State.oweZlp_mem (h : Ref) : (s.oweZlp i h).mem = s.mem := by
  unfold State.oweZlp
  split <;> rfl

@[simp] theorem writeLoop_mem (k : Nat) : (writeLoop i k s).mem = s.mem := by
  induction k generalizing s with
  | zero => rfl
  | succ k ih =>
    unfold writeLoop
    split
    · rfl
    · dsimp only
      split
      · simp
      · rw [ih]; simp

@[simp] theorem State.writeProcess_mem : (s.writeProcess i).mem = s.mem := by unfold State.writeProcess; simp

@[simp] theorem State.dropInflight_mem : (s.dropInflight i).mem = s.mem := by
  unfold State.dropInflight
  split <;> rfl

@[simp] theorem State.setRxpend_mem' (b : Bool) : (s.setRxpend i b).mem = s.mem := rfl

@[simp] theorem State.unmaskEpIrq_mem' : (s.unmaskEpIrq i).mem = s.mem := by
  unfold State.unmaskEpIrq
  split <;> rfl

@[simp] theorem State.programEp_mem (d : EpDesc) : (s.programEp i d).mem = s.mem := by
  unfold State.programEp
  simp

@[simp] theorem State.notify_mem (c : Callback) : (s.notify c).mem = s.mem := by
  unfold State.notify
  split <;> rfl

/-! ### Reading packets -/

/-- Reading the bank stores exactly the bytes from the head request's next free one (R190, R193). -/
theorem State.readBank_memory (h : Ref) :
    SameMemoryOutside (bufAt (s.req h).buf (s.req h).xfrd)
      (lenMin (s.ep i).sta.bytecnt ((s.req h).len - (s.req h).xfrd)).toNat s (s.readBank i h) := by
  intro a ha
  unfold State.readBank
  dsimp only
  exact readByte_writeBytes_other _ _ _ _ (by simpa [State.fifoReadRx, State.bankBytes_length] using ha)

theorem State.readBank_wf (h : Ref) (w : Memory.wf s.mem = true) : Memory.wf (s.readBank i h).mem = true := by
  unfold State.readBank
  exact writeBytes_wf _ _ _ w

/-- With no packet held, starting reads stores nothing (R189). -/
theorem readLoop_mem_of_not_held (k : Nat) (hr : (s.ep i).rxpend = false) : (readLoop i k s).mem = s.mem := by
  induction k generalizing s with
  | zero => rfl
  | succ k ih =>
    unfold readLoop
    split
    · rfl
    · split
      · rw [ih]
        · simp
        · rw [State.complete_ep_same]; exact hr
      · dsimp only
        split
        · rename_i hc
          simp [hr] at hc
        · rfl

theorem readLoop_wf (k : Nat) (w : Memory.wf s.mem = true) : Memory.wf (readLoop i k s).mem = true := by
  induction k generalizing s with
  | zero => exact w
  | succ k ih =>
    unfold readLoop
    split
    · exact w
    · rename_i h _
      split
      · exact ih _ (by simpa using w)
      · dsimp only
        split
        · have w2 := State.readBank_wf (((s.setEpState i .receiving).setRxpend i false).modCtl i
            fun c => { c with rxrdyIe := true }) i h w
          split
          · refine ih _ ?_
            show Memory.wf (State.complete _ i .ok).mem = true
            rw [State.complete_mem]; exact w2
          · exact w2
        · exact w

theorem State.readStart_wf (w : Memory.wf s.mem = true) : Memory.wf (s.readStart i).mem = true := readLoop_wf _ _ _ w

theorem State.readPacket_wf (w : Memory.wf s.mem = true) : Memory.wf (s.readPacket i).mem = true := by
  unfold State.readPacket
  split
  · exact w
  · rename_i h _
    dsimp only
    have w2 := State.readBank_wf s i h w
    split
    · refine State.readStart_wf _ i ?_
      show Memory.wf (State.complete _ i .ok).mem = true
      rw [State.complete_mem]; exact w2
    · exact w2

theorem State.startTransfer_wf (w : Memory.wf s.mem = true) : Memory.wf (s.startTransfer i).mem = true := by
  unfold State.startTransfer
  split
  · exact w
  · split
    · simpa using w
    · split
      · simpa using w
      · exact State.readStart_wf _ _ w

/-- A held packet's place in the queue `q` of endpoint `i` (R189, R192): starting the reads stores at most the
packet, in the buffer of the first request that asks for a byte. -/
theorem readLoop_memory (k : Nat) (hk : (s.ep i).queue.length < k) :
    match (s.ep i).queue.find? (fun h => decide ((s.req h).len ≠ 0)) with
    | none => (readLoop i k s).mem = s.mem
    | some h => SameMemoryOutside (bufAt (s.req h).buf (s.req h).xfrd)
        (lenMin (s.ep i).sta.bytecnt ((s.req h).len - (s.req h).xfrd)).toNat s (readLoop i k s) := by
  induction k generalizing s with
  | zero => omega
  | succ k ih =>
    unfold readLoop
    cases hq : (s.ep i).queue with
    | nil => simp [State.peek, hq]
    | cons h rest =>
      have hp : s.peek i = some h := by simp [State.peek, hq]
      rw [hp]
      by_cases hl : (s.req h).len = 0
      · have hf : List.find? (fun h => decide ((s.req h).len ≠ 0)) (h :: rest) =
            List.find? (fun h => decide ((s.req h).len ≠ 0)) rest := by simp [List.find?, hl]
        rw [hf]
        simp only [hl, if_true]
        have hq' : ((s.complete i .ok).ep i).queue = rest := by rw [State.complete_ep_same, hq]; rfl
        have hops : ∀ x, ((s.complete i .ok).req x).buf = (s.req x).buf ∧
            ((s.complete i .ok).req x).len = (s.req x).len ∧ ((s.complete i .ok).req x).xfrd = (s.req x).xfrd := by
          intro x
          rw [State.complete_cons s i .ok hq]
          simp only [State.callback_req, State.modReq_req, State.modEp_hasReq, State.modEp_req]
          by_cases e : x = h
          · subst e
            by_cases hr : s.hasReq x = true <;> simp [hr]
          · simp [e]
        have hsta : ((s.complete i .ok).ep i).sta = (s.ep i).sta := by rw [State.complete_ep_same]
        have hlen : ((s.complete i .ok).ep i).queue.length < k := by
          rw [hq']; rw [hq] at hk; simp at hk; omega
        have := ih (s.complete i .ok) hlen
        rw [hq'] at this
        simp only [fun x => (hops x).2.1, fun x => (hops x).1, fun x => (hops x).2.2, hsta] at this
        revert this
        cases List.find? (fun h => decide ((s.req h).len ≠ 0)) rest with
        | none => intro this; simpa using this
        | some x =>
          intro this a ha
          rw [this a ha, State.complete_mem]
      · have hf : List.find? (fun h => decide ((s.req h).len ≠ 0)) (h :: rest) = some h :=
          List.find?_cons_of_pos (by simpa using hl)
        rw [hf]
        simp only [hl, if_false]
        intro a ha
        split
        · have rb := State.readBank_memory (((s.setEpState i .receiving).setRxpend i false).modCtl i
            fun c => { c with rxrdyIe := true }) i h a (by
              intro j hj
              refine ha j ?_
              simpa using hj)
          split
          · rw [readLoop_mem_of_not_held]
            · show readByte (State.complete _ i .ok).mem a = _
              rw [State.complete_mem]; exact rb
            · rw [State.setEpState_ep, if_pos rfl]
              show ((State.complete _ i .ok).ep i).rxpend = false
              rw [State.complete_ep_same]
              simp [State.readBank, State.fifoReadRx]
          · exact rb
        · rfl

/-- Starting the queue of an endpoint stores at most a held packet, where `heldStore` says (R176, R189, R190). -/
theorem State.startTransfer_memory :
    SameMemoryOutside (s.heldStore i).1 (s.heldStore i).2 s (s.startTransfer i) := by
  intro a ha
  unfold State.startTransfer
  split
  · rfl
  · split
    · rw [State.dmaStart_mem]
    · split
      · rw [State.writeProcess_mem]
      · rename_i hd hi
        by_cases hr : (s.ep i).rxpend = true
        · have key := readLoop_memory s i ((s.ep i).queue.length + 1) (by omega)
          unfold State.heldStore State.heldReader at ha
          unfold State.readStart
          revert key ha
          cases List.find? (fun h => decide ((s.req h).len ≠ 0)) (s.ep i).queue with
          | none => intro _ key; exact congrArg (fun m => readByte m a) key
          | some h =>
            intro ha key
            simp only [hd, hi, hr, Bool.or_false, Bool.not_true, Bool.false_eq_true, if_false] at ha
            exact key a ha
        · unfold State.readStart
          rw [readLoop_mem_of_not_held _ _ _ (by simpa using hr)]

/-! ### DMA -/

/-- Abandoning a slice opens at most the bytes of memory of a slice under way on an OUT endpoint (I14). -/
theorem State.scrambleSlice_memory :
    SameMemoryOutside (s.ep i).chan.addr (s.liveSlice i) s (s.scrambleSlice i) := by
  intro a ha
  unfold State.liveSlice at ha
  unfold State.scrambleSlice
  dsimp only
  split
  · rename_i hc
    rw [if_pos hc] at ha
    exact readByte_writeBytes_other _ _ _ _ (by simpa [State.freeBytes] using ha)
  · rfl

/-- Everything abandoning a slice does: with no slice under way nothing, and otherwise only memory, the received bytes,
of which an end stays, and the counter of free values change. -/
theorem State.scrambleSlice_spec :
    let t := s.scrambleSlice i
    t = { s with eps := t.eps, mem := t.mem, draws := t.draws } ∧ (∀ j, j ≠ i → t.ep j = s.ep j) ∧
    t.ep i = { s.ep i with fifo := { (s.ep i).fifo with rx := (t.ep i).fifo.rx } } ∧
    RxLeft (s.liveSlice i) (s.ep i).fifo.rx (t.ep i).fifo.rx ∧
    SameMemoryOutside (s.ep i).chan.addr (s.liveSlice i) s t ∧
    ((s.ep i).chan.running = false → t = s) := by
  dsimp only
  refine ⟨?_, ?_, ?_, ?_, State.scrambleSlice_memory s i, ?_⟩
  · unfold State.scrambleSlice; dsimp only; split <;> rfl
  · intro j hj
    unfold State.scrambleSlice; dsimp only; split
    · rw [State.draw_ep, State.modEp_ep_other _ _ _ _ hj]; rfl
    · rfl
  · unfold State.scrambleSlice; dsimp only; split
    · rw [State.draw_ep, State.modEp_ep_same]; rfl
    · rfl
  · unfold State.scrambleSlice; dsimp only; split
    · rename_i hc
      rw [State.draw_ep, State.modEp_ep_same]
      unfold State.liveSlice
      rw [if_pos hc]
      exact ⟨_, Nat.min_le_right _ _, rfl⟩
    · exact ⟨0, Nat.zero_le _, rfl⟩
  · intro h
    unfold State.scrambleSlice
    simp [h]

theorem State.scrambleSlice_wf (w : Memory.wf s.mem = true) : Memory.wf (s.scrambleSlice i).mem = true := by
  unfold State.scrambleSlice
  dsimp only
  split
  · exact writeBytes_wf _ _ _ w
  · exact w

theorem State.moveSlice_memory (k : Nat) :
    SameMemoryOutside (s.ep i).chan.addr
      (if (s.ep i).chan.running && !s.isIn i then k else 0) s (s.moveSlice i k) := by
  intro a ha
  unfold State.moveSlice
  dsimp only
  split
  · rename_i hr
    split
    · rfl
    · rename_i hi
      simp only [hr, hi, Bool.not_false, Bool.and_self, if_true] at ha
      exact readByte_writeBytes_other _ _ _ _ (by simpa [State.fifoReadRx, State.bankBytes_length] using ha)
  · rfl

theorem State.moveSlice_wf (k : Nat) (w : Memory.wf s.mem = true) : Memory.wf (s.moveSlice i k).mem = true := by
  unfold State.moveSlice
  dsimp only
  split
  · split
    · exact w
    · exact writeBytes_wf _ _ _ w
  · exact w

theorem State.dmaStop_mem : (s.dmaStop i).mem = (s.scrambleSlice i).mem := by
  unfold State.dmaStop
  dsimp only
  split <;> rfl

/-- Stopping a busy channel leaves at most its slice open (R207, I14). -/
theorem State.dmaStopIfBusy_memory :
    SameMemoryOutside (s.ep i).chan.addr (s.openSlice i) s (s.dmaStopIfBusy i) := by
  intro a ha
  unfold State.dmaStopIfBusy
  split
  · rename_i hb
    rw [State.dmaStop_mem]
    refine State.scrambleSlice_memory s i a ?_
    unfold State.openSlice at ha
    simpa [hb] using ha
  · rfl

theorem State.dmaStopIfBusy_wf (w : Memory.wf s.mem = true) : Memory.wf (s.dmaStopIfBusy i).mem = true := by
  unfold State.dmaStopIfBusy
  split
  · rw [State.dmaStop_mem]; exact State.scrambleSlice_wf _ _ w
  · exact w

/-- Masking an endpoint's interrupts leaves its slice as it is. -/
theorem State.maskEpIrq_openSlice : (s.maskEpIrq i).openSlice i = s.openSlice i := by
  unfold State.openSlice State.liveSlice State.isIn
  rw [State.maskEpIrq_ep, if_pos rfl]

theorem State.disableEp_mem : (s.disableEp i).mem = ((s.maskEpIrq i).dmaStopIfBusy i).mem := by
  unfold State.disableEp
  dsimp only
  split <;> simp

theorem State.resetEp_mem : (s.resetEp i).mem = ((s.maskEpIrq i).dmaStopIfBusy i).mem := by
  unfold State.resetEp
  simp

/-- Disabling an endpoint leaves at most its stopped slice open (R124). -/
theorem State.disableEp_memory : SameMemoryOutside (s.ep i).chan.addr (s.openSlice i) s (s.disableEp i) := by
  intro a ha
  rw [State.disableEp_mem]
  have := State.dmaStopIfBusy_memory (s.maskEpIrq i) i a
  rw [State.maskEpIrq_openSlice, State.maskEpIrq_ep, if_pos rfl] at this
  exact this ha

theorem State.disableEp_wf (w : Memory.wf s.mem = true) : Memory.wf (s.disableEp i).mem = true := by
  rw [State.disableEp_mem]; exact State.dmaStopIfBusy_wf _ _ w

theorem State.resetEp_wf (w : Memory.wf s.mem = true) : Memory.wf (s.resetEp i).mem = true := by
  rw [State.resetEp_mem]; exact State.dmaStopIfBusy_wf _ _ w

/-- Stalling an endpoint leaves at most its stopped slice open (R140). -/
theorem State.stallEp_memory : SameMemoryOutside (s.ep i).chan.addr (s.openSlice i) s (s.stallEp i) := by
  intro a ha
  unfold State.stallEp
  split
  · rfl
  · rfl
  · dsimp only
    have e : ∀ v : State, (if i = 0 then v.modDev fun d => { d with scratchCount := 0, pendingAddr := 0 } else v).mem =
        v.mem := by intro v; split <;> rfl
    show readByte (ite _ _ _ : State).mem a = _
    rw [e]
    split
    · rw [State.complete_mem, State.dropInflight_mem]
      exact State.dmaStopIfBusy_memory s i a ha
    · rfl

theorem State.stallEp_wf (w : Memory.wf s.mem = true) : Memory.wf (s.stallEp i).mem = true := by
  unfold State.stallEp
  split
  · exact w
  · exact w
  · dsimp only
    have e : ∀ v : State, (if i = 0 then v.modDev fun d => { d with scratchCount := 0, pendingAddr := 0 } else v).mem =
        v.mem := by intro v; split <;> rfl
    show Memory.wf (ite _ _ _ : State).mem = true
    rw [e]
    split
    · rw [State.complete_mem, State.dropInflight_mem]
      exact State.dmaStopIfBusy_wf s i w
    · exact w

theorem State.resumeEp_wf (w : Memory.wf s.mem = true) : Memory.wf (s.resumeEp i).mem = true := by
  unfold State.resumeEp
  split
  · exact State.startTransfer_wf _ _ w
  · exact w

theorem State.completeAndStart_wf (r : Result) (w : Memory.wf s.mem = true) :
    Memory.wf (s.completeAndStart i r).mem = true := by
  refine State.startTransfer_wf _ i ?_
  show Memory.wf (State.complete _ i r).mem = true
  rw [State.complete_mem]; exact w

end Sys2Proof.Machine
end

