-- ==== Sys2Proof/Laws/PerInstr.lean ====
section
/-! SUPPORT. Statements about every instruction, one lemma a constructor: how long each encoding is (R80). -/

namespace Sys2Proof.Laws.EncodeLength

/-- The length of an instruction's record: a command word and its argument are 8 bytes, a SETUP packet is 8, and a
stimulus record is a code byte, then an endpoint or channel byte where it has one, then its data. -/
def Statement (i : Instr) : Prop :=
  match portOf i with
  | .command => (encode i).length = 8
  | .setup => (encode i).length = 8
  | .stimulus => ∃ code args, encode i = code :: args ∧ 0x80#8 ≤ code ∧ code ≤ 0x8C#8

theorem command (w arg : Word) : (encodeCommand w arg).length = 8 := by
  simp [encodeCommand, Sys2Proof.Machine.bytesOfNat_length]

theorem setup (t : BitVec 2) (c : Byte) (a : SetupArgs) : (encodeSetup t c a).length = 8 := by
  simp [encodeSetup, Sys2Proof.Machine.bytesOfNat_length]

theorem configureEndpoint (e : EpIx) (d : EpDesc) : Statement (.configureEndpoint e d) := command _ _
theorem disableEndpoint (e : EpIx) : Statement (.disableEndpoint e) := command _ _
theorem allocateRequest : Statement (.allocateRequest) := command _ _
theorem freeRequest (e : EpIx) (h : Ref) : Statement (.freeRequest e h) := command _ _
theorem submit (e : EpIx) (h : Ref) : Statement (.submit e h) := command _ _
theorem cancel (e : EpIx) (h : Ref) : Statement (.cancel e h) := command _ _
theorem stall (e : EpIx) : Statement (.stall e) := command _ _
theorem resumeStall (e : EpIx) : Statement (.resumeStall e) := command _ _
theorem allocateEndpoint (n : EpIx) (b : Bool) (t : EpType) : Statement (.allocateEndpoint n b t) := command _ _
theorem freeEndpoint (e : EpIx) : Statement (.freeEndpoint e) := command _ _
theorem getFrameNumber : Statement (.getFrameNumber) := command _ _
theorem wakeup : Statement (.wakeup) := command _ _
theorem setSelfPowered (b : Bool) : Statement (.setSelfPowered b) := command _ _
theorem setPullup (b : Bool) : Statement (.setPullup b) := command _ _
theorem bind (d : Ref) : Statement (.bind d) := command _ _
theorem unbind : Statement (.unbind) := command _ _
theorem invalidCommand (w : Word) : Statement (.invalidCommand w) := command _ _
theorem busBusreset : Statement (.busBusreset) := ⟨_, _, rfl, by decide, by decide⟩
theorem busSuspend : Statement (.busSuspend) := ⟨_, _, rfl, by decide, by decide⟩
theorem busResume : Statement (.busResume) := ⟨_, _, rfl, by decide, by decide⟩
theorem busSof (f : BitVec 16) : Statement (.busSof f) := ⟨_, _, rfl, by decide, by decide⟩
theorem busUpresume : Statement (.busUpresume) := ⟨_, _, rfl, by decide, by decide⟩
theorem busSetup (e : EpIx) (p : SetupPacket) : Statement (.busSetup e p) := ⟨_, _, rfl, by decide, by decide⟩
theorem busRxpkt (e : EpIx) (bs : List Byte) : Statement (.busRxpkt e bs) := ⟨_, _, rfl, by decide, by decide⟩
theorem busTxdone (e : EpIx) : Statement (.busTxdone e) := ⟨_, _, rfl, by decide, by decide⟩
theorem busStallsent (e : EpIx) : Statement (.busStallsent e) := ⟨_, _, rfl, by decide, by decide⟩
theorem busDmaEob (c : EpIx) (r : BitVec 16) : Statement (.busDmaEob c r) := ⟨_, _, rfl, by decide, by decide⟩
theorem busDmaEoc (c : EpIx) : Statement (.busDmaEoc c) := ⟨_, _, rfl, by decide, by decide⟩
theorem busDmaErr (c : EpIx) : Statement (.busDmaErr c) := ⟨_, _, rfl, by decide, by decide⟩
theorem busRwakeDone : Statement (.busRwakeDone) := ⟨_, _, rfl, by decide, by decide⟩
theorem setupGetStatus (a : SetupArgs) : Statement (.setupGetStatus a) := setup _ _ _
theorem setupClearFeature (a : SetupArgs) : Statement (.setupClearFeature a) := setup _ _ _
theorem setupSetFeature (a : SetupArgs) : Statement (.setupSetFeature a) := setup _ _ _
theorem setupSetAddress (a : SetupArgs) : Statement (.setupSetAddress a) := setup _ _ _
theorem setupGetDescriptor (a : SetupArgs) : Statement (.setupGetDescriptor a) := setup _ _ _
theorem setupSetDescriptor (a : SetupArgs) : Statement (.setupSetDescriptor a) := setup _ _ _
theorem setupGetConfiguration (a : SetupArgs) : Statement (.setupGetConfiguration a) := setup _ _ _
theorem setupSetConfiguration (a : SetupArgs) : Statement (.setupSetConfiguration a) := setup _ _ _
theorem setupGetInterface (a : SetupArgs) : Statement (.setupGetInterface a) := setup _ _ _
theorem setupSetInterface (a : SetupArgs) : Statement (.setupSetInterface a) := setup _ _ _
theorem setupSynchFrame (a : SetupArgs) : Statement (.setupSynchFrame a) := setup _ _ _
theorem setupUnknownStandard (c : Byte) (a : SetupArgs) : Statement (.setupUnknownStandard c a) := setup _ _ _
theorem setupNonstandardClass (c : Byte) (a : SetupArgs) : Statement (.setupNonstandardClass c a) := setup _ _ _
theorem setupNonstandardVendor (c : Byte) (a : SetupArgs) : Statement (.setupNonstandardVendor c a) := setup _ _ _
theorem setupNonstandardReservedType (c : Byte) (a : SetupArgs) : Statement (.setupNonstandardReservedType c a) := setup _ _ _

end Sys2Proof.Laws.EncodeLength
end

