-- ==== Sys2Proof/Laws/Start.lean ====
section
/-! SUPPORT. What starting an endpoint's queue leaves alone, and the state it leaves the endpoint in: in a transfer
with a head request, or `Idle` with none (R174, R176). -/

namespace Sys2Proof.Machine

theorem Endpoint.Kept.refl (e : Endpoint) : e.Kept e :=
  ⟨rfl, rfl, rfl, rfl, rfl, rfl, rfl, rfl, rfl, rfl, rfl, rfl, rfl⟩

theorem Endpoint.Kept.trans {e e' e'' : Endpoint} (a : e.Kept e') (b : e'.Kept e'') : e.Kept e'' :=
  ⟨b.reserved.trans a.reserved, b.dir.trans a.dir, b.type.trans a.type, b.mps.trans a.mps, b.banks.trans a.banks,
    b.stalled.trans a.stalled, b.halted.trans a.halted, b.irqEn.trans a.irqEn, b.enable.trans a.enable,
    b.forcestall.trans a.forcestall, b.ctlMps.trans a.ctlMps, b.stallsentIe.trans a.stallsentIe,
    b.setupIe.trans a.setupIe⟩

variable {s : State} {i : EpIx}

theorem State.modEp_kept {t : State} {f : Endpoint → Endpoint} (h : (s.ep i).Kept (t.ep i))
    (hf : (t.ep i).Kept (f (t.ep i))) : (s.ep i).Kept ((t.modEp i f).ep i) := by
  rw [State.modEp_ep_same]; exact h.trans hf

theorem State.complete_kept {t : State} (h : (s.ep i).Kept (t.ep i)) (r : Result) :
    (s.ep i).Kept ((t.complete i r).ep i) := by
  rw [State.complete_ep_same]; exact h.trans ⟨rfl, rfl, rfl, rfl, rfl, rfl, rfl, rfl, rfl, rfl, rfl, rfl, rfl⟩

theorem State.dmaSlice_kept {t : State} (h : (s.ep i).Kept (t.ep i)) : (s.ep i).Kept ((t.dmaSlice i).ep i) := by
  unfold State.dmaSlice
  split
  · exact h
  · refine State.modEp_kept ?_ ⟨rfl, rfl, rfl, rfl, rfl, rfl, rfl, rfl, rfl, rfl, rfl, rfl, rfl⟩
    rw [State.modReq_ep]
    split <;> exact h

theorem State.setEpState_kept {t : State} (h : (s.ep i).Kept (t.ep i)) (x : EpState) :
    (s.ep i).Kept ((t.setEpState i x).ep i) :=
  State.modEp_kept h ⟨rfl, rfl, rfl, rfl, rfl, rfl, rfl, rfl, rfl, rfl, rfl, rfl, rfl⟩

theorem State.peek_some {t : State} {h : Ref} (e : t.peek i = some h) : ∃ rest, (t.ep i).queue = h :: rest := by
  unfold State.peek at e
  cases hq : (t.ep i).queue with
  | nil => rw [hq] at e; cases e
  | cons a r => rw [hq] at e; cases e; exact ⟨r, rfl⟩

theorem State.peek_none {t : State} (e : t.peek i = none) : (t.ep i).queue = [] := by
  unfold State.peek at e
  cases hq : (t.ep i).queue with
  | nil => rfl
  | cons a r => rw [hq] at e; cases e

theorem State.complete_queue_length {t : State} {h : Ref} (e : t.peek i = some h) (r : Result) :
    ((t.complete i r).ep i).queue.length + 1 = (t.ep i).queue.length := by
  obtain ⟨rest, hq⟩ := State.peek_some e
  rw [State.complete_ep_same, hq]; rfl

theorem State.dmaSlice_ep (t : State) {h : Ref} (e : t.peek i = some h) :
    ((t.dmaSlice i).ep i).state = (t.ep i).state ∧ ((t.dmaSlice i).ep i).queue = (t.ep i).queue := by
  unfold State.dmaSlice
  rw [e]
  dsimp only
  rw [State.modEp_ep_same, State.modReq_ep]
  split <;> exact ⟨rfl, rfl⟩

/-! ### DMA -/

theorem dmaStartLoop_kept (k : Nat) {t : State} (h : (s.ep i).Kept (t.ep i)) :
    (s.ep i).Kept ((dmaStartLoop i k t).ep i) := by
  induction k generalizing t with
  | zero => exact h
  | succ k ih =>
    unfold dmaStartLoop
    split
    · exact h
    · split
      · split
        · unfold State.dmaZlp
          refine State.setEpState_kept (State.modEp_kept (State.modEp_kept (State.modEp_kept ?_ ?_) ?_) ?_) _
          · rw [State.modReq_ep]
            exact State.modEp_kept h ⟨rfl, rfl, rfl, rfl, rfl, rfl, rfl, rfl, rfl, rfl, rfl, rfl, rfl⟩
          all_goals exact ⟨rfl, rfl, rfl, rfl, rfl, rfl, rfl, rfl, rfl, rfl, rfl, rfl, rfl⟩
        · exact ih (State.setEpState_kept (State.complete_kept h _) _)
      · exact State.dmaSlice_kept (State.setEpState_kept h _)

theorem dmaStartLoop_settled (k : Nat) (t : State) (hk : (t.ep i).queue.length < k) (hi : (t.ep i).state = .idle) :
    ((dmaStartLoop i k t).ep i).settled := by
  induction k generalizing t with
  | zero => omega
  | succ k ih =>
    unfold dmaStartLoop
    split
    · rename_i e; exact .inr ⟨hi, State.peek_none e⟩
    · rename_i h e
      obtain ⟨rest, hq⟩ := State.peek_some e
      split
      · split
        · left
          unfold State.dmaZlp
          simp [hq]
        · refine ih _ ?_ ?_
          · rw [State.setEpState_ep, if_pos rfl]
            have := State.complete_queue_length e .ok
            show ((t.complete i .ok).ep i).queue.length < k
            omega
          · rw [State.setEpState_ep, if_pos rfl]
      · left
        have hp : (t.setEpState i (if t.isIn i then .sending else .receiving)).peek i = some h := by
          unfold State.peek; rw [State.setEpState_ep, if_pos rfl]; exact e
        have := State.dmaSlice_ep _ hp
        rw [this.1, this.2, State.setEpState_ep, if_pos rfl]
        refine ⟨?_, by rw [hq]; simp⟩
        show (if t.isIn i then EpState.sending else .receiving) = _ ∨ _
        split <;> simp

/-! ### The packet copier -/

theorem State.sendPacket_kept {t : State} (h : (s.ep i).Kept (t.ep i)) (r : Ref) :
    (s.ep i).Kept ((t.sendPacket i r).ep i) := by
  unfold State.sendPacket
  refine State.setEpState_kept (State.modEp_kept (State.modEp_kept ?_ ?_) ?_) _
  · rw [State.modReq_ep]
    refine State.modEp_kept (State.modEp_kept h ?_) ?_ <;>
      exact ⟨rfl, rfl, rfl, rfl, rfl, rfl, rfl, rfl, rfl, rfl, rfl, rfl, rfl⟩
  all_goals exact ⟨rfl, rfl, rfl, rfl, rfl, rfl, rfl, rfl, rfl, rfl, rfl, rfl, rfl⟩

theorem State.oweZlp_kept {t : State} (h : (s.ep i).Kept (t.ep i)) (r : Ref) :
    (s.ep i).Kept ((t.oweZlp i r).ep i) := by
  unfold State.oweZlp
  split
  · exact State.modEp_kept h ⟨rfl, rfl, rfl, rfl, rfl, rfl, rfl, rfl, rfl, rfl, rfl, rfl, rfl⟩
  · exact h

theorem State.oweZlp_queue (t : State) (r : Ref) : ((t.oweZlp i r).ep i).queue = (t.ep i).queue := by
  unfold State.oweZlp
  split
  · simp
  · rfl

theorem State.sendPacket_ep (t : State) (r : Ref) :
    ((t.sendPacket i r).ep i).state = .sending ∧ ((t.sendPacket i r).ep i).queue = (t.ep i).queue := by
  unfold State.sendPacket; simp

theorem writeLoop_kept (k : Nat) {t : State} (h : (s.ep i).Kept (t.ep i)) :
    (s.ep i).Kept ((writeLoop i k t).ep i) := by
  induction k generalizing t with
  | zero => exact h
  | succ k ih =>
    unfold writeLoop
    split
    · exact State.setEpState_kept h _
    · rename_i r _
      dsimp only
      have g : (s.ep i).Kept (((t.countSent r).oweZlp i r).ep i) :=
        State.oweZlp_kept (t := t.countSent r) h r
      split
      · exact State.sendPacket_kept g _
      · exact ih (State.complete_kept g _)

theorem writeLoop_settled (k : Nat) (t : State) (hk : (t.ep i).queue.length < k) :
    ((writeLoop i k t).ep i).settled := by
  induction k generalizing t with
  | zero => omega
  | succ k ih =>
    unfold writeLoop
    split
    · rename_i e
      right
      rw [State.setEpState_ep, if_pos rfl]
      exact ⟨rfl, State.peek_none e⟩
    · rename_i r e
      obtain ⟨rest, hq⟩ := State.peek_some e
      dsimp only
      have q : (((t.countSent r).oweZlp i r).ep i).queue = (t.ep i).queue :=
        State.oweZlp_queue (t.countSent r) r
      split
      · left
        have := State.sendPacket_ep (i := i) ((t.countSent r).oweZlp i r) r
        rw [this.1, this.2, q, hq]
        simp
      · apply ih
        rw [State.complete_ep_same, q, hq]
        rw [hq] at hk
        simp at hk ⊢
        omega

theorem State.readBank_kept {t : State} (h : (s.ep i).Kept (t.ep i)) (r : Ref) :
    (s.ep i).Kept ((t.readBank i r).ep i) := by
  unfold State.readBank State.fifoReadRx
  refine State.modEp_kept (State.modEp_kept ?_ ?_) ?_
  · rw [State.modReq_ep, State.memWrite_ep, State.draw_ep]
    exact State.modEp_kept h ⟨rfl, rfl, rfl, rfl, rfl, rfl, rfl, rfl, rfl, rfl, rfl, rfl, rfl⟩
  all_goals exact ⟨rfl, rfl, rfl, rfl, rfl, rfl, rfl, rfl, rfl, rfl, rfl, rfl, rfl⟩

theorem State.readBank_ep (t : State) (r : Ref) :
    ((t.readBank i r).ep i).state = (t.ep i).state ∧ ((t.readBank i r).ep i).queue = (t.ep i).queue := by
  unfold State.readBank State.fifoReadRx; simp

theorem State.setRxpend_kept {t : State} (h : (s.ep i).Kept (t.ep i)) (b : Bool) :
    (s.ep i).Kept ((t.setRxpend i b).ep i) := by
  rw [State.setRxpend_ep, if_pos rfl]
  exact h.trans ⟨rfl, rfl, rfl, rfl, rfl, rfl, rfl, rfl, rfl, rfl, rfl, rfl, rfl⟩

theorem readLoop_kept (k : Nat) {t : State} (h : (s.ep i).Kept (t.ep i)) :
    (s.ep i).Kept ((readLoop i k t).ep i) := by
  induction k generalizing t with
  | zero => exact h
  | succ k ih =>
    unfold readLoop
    split
    · exact State.setEpState_kept h _
    · rename_i r _
      split
      · exact ih (State.complete_kept h _)
      · dsimp only
        split
        · have g := State.readBank_kept (State.modEp_kept (State.setRxpend_kept (State.setEpState_kept h .receiving) false)
            (f := fun e => { e with ctl := { e.ctl with rxrdyIe := true } })
            ⟨rfl, rfl, rfl, rfl, rfl, rfl, rfl, rfl, rfl, rfl, rfl, rfl, rfl⟩) r
          split
          · exact ih (State.setEpState_kept (State.complete_kept g _) _)
          · exact g
        · exact State.setEpState_kept h _

theorem readLoop_settled (k : Nat) (t : State) (hk : (t.ep i).queue.length < k) :
    ((readLoop i k t).ep i).settled := by
  induction k generalizing t with
  | zero => omega
  | succ k ih =>
    unfold readLoop
    split
    · rename_i e
      right
      rw [State.setEpState_ep, if_pos rfl]
      exact ⟨rfl, State.peek_none e⟩
    · rename_i r e
      obtain ⟨rest, hq⟩ := State.peek_some e
      split
      · apply ih
        have := State.complete_queue_length e .ok
        omega
      · dsimp only
        split
        · have g := State.readBank_ep (i := i) (((t.setEpState i .receiving).setRxpend i false).modCtl i
            fun c => { c with rxrdyIe := true }) r
          split
          · apply ih
            rw [State.setEpState_ep, if_pos rfl]
            show ((State.complete _ i .ok).ep i).queue.length < k
            rw [State.complete_ep_same, g.2]
            simp [hq]
            rw [hq] at hk
            simp at hk
            omega
          · left
            rw [g.1, g.2]
            simp [hq]
        · left
          simp [hq]

/-! ### Starting the queue -/

theorem State.startTransfer_kept {t : State} (h : (s.ep i).Kept (t.ep i)) :
    (s.ep i).Kept ((t.startTransfer i).ep i) := by
  unfold State.startTransfer State.dmaStart State.writeProcess State.readStart
  split
  · exact h
  · split
    · split
      · exact h
      · exact dmaStartLoop_kept _ h
    · split
      · exact writeLoop_kept _ h
      · exact readLoop_kept _ h

/-- `StartTransfer` from `Idle` leaves the endpoint in a transfer with a head, or `Idle` with no request. -/
theorem State.startTransfer_settled (t : State) (hi : (t.ep i).state = .idle) :
    ((t.startTransfer i).ep i).settled := by
  unfold State.startTransfer State.dmaStart State.writeProcess State.readStart
  split
  · rename_i hq
    exact .inr ⟨hi, by simpa using hq⟩
  · split
    · rw [if_neg (by simp [hi])]
      exact dmaStartLoop_settled _ _ (by omega) hi
    · split
      · exact writeLoop_settled _ _ (by omega)
      · exact readLoop_settled _ _ (by omega)

end Sys2Proof.Machine
end

