-- ==== Sys2Proof/Tests/Slice0.lean ====
section
/-! SUPPORT. Tests. Ill-formed terms that `wellFormed` refuses; each constructor's decoding from a word written out from
the spec's encoding of it (R81, R85, R90, R95, R97); the register words of V-ENC-12 to V-ENC-15; single steps of the
spec's vectors (95_test_vectors.md); and, for every obligation with hypotheses, states and operands that meet them, one
for each clause and at the boundaries of its ranges. -/

open Sys2Proof Sys2Proof.Machine

namespace Sys2Proof.Tests

/-! ### Well-formedness -/

theorem test_wf_refuses_invalidCommand_that_is_a_command : (Instr.invalidCommand 0x00000105).wellFormed = false := by decide
theorem test_wf_accepts_invalidCommand_above_bit_14 : (Instr.invalidCommand 0x00008005).wellFormed = true := by decide
theorem test_wf_refuses_named_standard_request :
    (Instr.setupUnknownStandard 0x0C ⟨false, 0, 0, 0, 0⟩).wellFormed = false := by decide
theorem test_wf_accepts_unnamed_standard_request :
    (Instr.setupUnknownStandard 0x0D ⟨false, 0, 0, 0, 0⟩).wellFormed = true := by decide
theorem test_wf_refuses_packet_of_65536_bytes (bytes : List Byte) (h : bytes.length = 65536) :
    (Instr.busRxpkt 1 bytes).wellFormed = false := by simp [Instr.wellFormed, h]

/-! ### Decoding: command words (R95; V-ENC-06 to V-ENC-11), four bytes little-endian and the argument -/

theorem test_decode_configureEndpoint :
    decode .command [0x01, 0x03, 0x00, 0x00, 0x81, 0x02, 0x00, 0x02] = .ok (.configureEndpoint 3 ⟨0x81, 0x02, 512⟩, []) := by
  decide
theorem test_decode_disableEndpoint :
    decode .command [0x02, 0x02, 0x00, 0x00, 0, 0, 0, 0] = .ok (.disableEndpoint 2, []) := by decide
theorem test_decode_allocateRequest :
    decode .command [0x03, 0x00, 0x00, 0x00, 0, 0, 0, 0] = .ok (.allocateRequest, []) := by decide
theorem test_decode_freeRequest :
    decode .command [0x04, 0x01, 0x00, 0x00, 9, 0, 0, 0] = .ok (.freeRequest 1 9, []) := by decide
theorem test_decode_submit :
    decode .command [0x05, 0x01, 0x00, 0x00, 0x78, 0x56, 0x34, 0x12] = .ok (.submit 1 0x12345678, []) := by decide
theorem test_decode_cancel :
    decode .command [0x06, 0x0F, 0x00, 0x00, 9, 0, 0, 0] = .ok (.cancel 15 9, []) := by decide
theorem test_decode_stall : decode .command [0x07, 0x01, 0x00, 0x00, 0, 0, 0, 0] = .ok (.stall 1, []) := by decide
theorem test_decode_resumeStall :
    decode .command [0x07, 0x11, 0x00, 0x00, 0, 0, 0, 0] = .ok (.resumeStall 1, []) := by decide
theorem test_decode_allocateEndpoint :
    decode .command [0x08, 0x63, 0x00, 0x00, 0, 0, 0, 0] = .ok (.allocateEndpoint 3 false .interrupt, []) := by decide
theorem test_decode_freeEndpoint :
    decode .command [0x09, 0x02, 0x00, 0x00, 0, 0, 0, 0] = .ok (.freeEndpoint 2, []) := by decide
theorem test_decode_getFrameNumber :
    decode .command [0x0A, 0x00, 0x00, 0x00, 0, 0, 0, 0] = .ok (.getFrameNumber, []) := by decide
theorem test_decode_wakeup : decode .command [0x0B, 0x00, 0x00, 0x00, 0, 0, 0, 0] = .ok (.wakeup, []) := by decide
theorem test_decode_setSelfPowered :
    decode .command [0x0C, 0x10, 0x00, 0x00, 0, 0, 0, 0] = .ok (.setSelfPowered true, []) := by decide
theorem test_decode_setPullup :
    decode .command [0x0D, 0x00, 0x00, 0x00, 0, 0, 0, 0] = .ok (.setPullup false, []) := by decide
theorem test_decode_bind : decode .command [0x0E, 0x00, 0x00, 0x00, 7, 0, 0, 0] = .ok (.bind 7, []) := by decide
theorem test_decode_unbind : decode .command [0x0F, 0x00, 0x00, 0x00, 0, 0, 0, 0] = .ok (.unbind, []) := by decide
theorem test_decode_invalidCommand :
    decode .command [0xFF, 0x00, 0x00, 0x00, 0, 0, 0, 0] = .ok (.invalidCommand 0x000000FF, []) := by decide
theorem test_decode_invalidCommand_bit_15 :
    decode .command [0x05, 0x80, 0x00, 0x00, 0, 0, 0, 0] = .ok (.invalidCommand 0x00008005, []) := by decide

/-! ### Decoding: stimulus records (R97) -/

theorem test_decode_busBusreset : decode .stimulus [0x80] = .ok (.busBusreset, []) := by decide
theorem test_decode_busSuspend : decode .stimulus [0x81] = .ok (.busSuspend, []) := by decide
theorem test_decode_busResume : decode .stimulus [0x82] = .ok (.busResume, []) := by decide
theorem test_decode_busSof : decode .stimulus [0x83, 0x34, 0x12] = .ok (.busSof 0x1234, []) := by decide
theorem test_decode_busUpresume : decode .stimulus [0x84] = .ok (.busUpresume, []) := by decide
theorem test_decode_busSetup :
    decode .stimulus [0x85, 0x00, 0x80, 0x06, 0x00, 0x01, 0x00, 0x00, 0x12, 0x00] =
      .ok (.busSetup 0 0x0012000001000680, []) := by decide
theorem test_decode_busRxpkt :
    decode .stimulus [0x86, 0x02, 0x03, 0x00, 0xAA, 0xBB, 0xCC, 0xDD] = .ok (.busRxpkt 2 [0xAA, 0xBB, 0xCC], [0xDD]) := by
  decide
theorem test_decode_busTxdone : decode .stimulus [0x87, 0x01] = .ok (.busTxdone 1, []) := by decide
theorem test_decode_busStallsent : decode .stimulus [0x88, 0x01] = .ok (.busStallsent 1, []) := by decide
theorem test_decode_busDmaEob : decode .stimulus [0x89, 0x02, 0xA0, 0x0F] = .ok (.busDmaEob 2 4000, []) := by decide
theorem test_decode_busDmaEoc : decode .stimulus [0x8A, 0x02] = .ok (.busDmaEoc 2, []) := by decide
theorem test_decode_busDmaErr : decode .stimulus [0x8B, 0x0F] = .ok (.busDmaErr 15, []) := by decide
theorem test_decode_busRwakeDone : decode .stimulus [0x8C] = .ok (.busRwakeDone, []) := by decide
theorem test_decode_unknown_stimulus : decode .stimulus [0x8D] = .error .unknownStimulus := by decide
theorem test_decode_channel_16 : decode .stimulus [0x8A, 0x10] = .error .noSuchEndpoint := by decide

/-! ### Decoding: SETUP packets (R81, R83, R85; V-ENC-01 to V-ENC-05) -/

theorem test_decode_setupGetStatus :
    decode .setup [0x82, 0x00, 0x00, 0x00, 0x81, 0x00, 0x02, 0x00] = .ok (.setupGetStatus ⟨true, 2, 0, 0x81, 2⟩, []) := by
  decide
theorem test_decode_setupClearFeature :
    decode .setup [0x02, 0x01, 0x00, 0x00, 0x01, 0x00, 0x00, 0x00] = .ok (.setupClearFeature ⟨false, 2, 0, 1, 0⟩, []) := by
  decide
theorem test_decode_setupSetFeature :
    decode .setup [0x00, 0x03, 0x02, 0x00, 0x00, 0x01, 0x00, 0x00] = .ok (.setupSetFeature ⟨false, 0, 2, 0x100, 0⟩, []) := by
  decide
theorem test_decode_setupSetAddress :
    decode .setup [0x00, 0x05, 0x05, 0x00, 0x00, 0x00, 0x00, 0x00] = .ok (.setupSetAddress ⟨false, 0, 5, 0, 0⟩, []) := by
  decide
theorem test_decode_setupGetDescriptor :
    decode .setup [0x80, 0x06, 0x00, 0x01, 0x00, 0x00, 0x12, 0x00] =
      .ok (.setupGetDescriptor ⟨true, 0, 0x100, 0, 0x12⟩, []) := by decide
theorem test_decode_setupSetDescriptor :
    decode .setup [0x00, 0x07, 0x00, 0x01, 0x00, 0x00, 0x12, 0x00] =
      .ok (.setupSetDescriptor ⟨false, 0, 0x100, 0, 0x12⟩, []) := by decide
theorem test_decode_setupGetConfiguration :
    decode .setup [0x80, 0x08, 0x00, 0x00, 0x00, 0x00, 0x01, 0x00] = .ok (.setupGetConfiguration ⟨true, 0, 0, 0, 1⟩, []) := by
  decide
theorem test_decode_setupSetConfiguration :
    decode .setup [0x00, 0x09, 0x01, 0x00, 0x00, 0x00, 0x00, 0x00] = .ok (.setupSetConfiguration ⟨false, 0, 1, 0, 0⟩, []) := by
  decide
theorem test_decode_setupGetInterface :
    decode .setup [0x81, 0x0A, 0x00, 0x00, 0x03, 0x00, 0x01, 0x00] = .ok (.setupGetInterface ⟨true, 1, 0, 3, 1⟩, []) := by
  decide
theorem test_decode_setupSetInterface :
    decode .setup [0x01, 0x0B, 0x02, 0x00, 0x03, 0x00, 0x00, 0x00] = .ok (.setupSetInterface ⟨false, 1, 2, 3, 0⟩, []) := by
  decide
theorem test_decode_setupSynchFrame :
    decode .setup [0x82, 0x0C, 0x00, 0x00, 0x01, 0x00, 0x02, 0x00] = .ok (.setupSynchFrame ⟨true, 2, 0, 1, 2⟩, []) := by
  decide
theorem test_decode_setupUnknownStandard :
    decode .setup [0x9F, 0x0D, 0x00, 0x00, 0x00, 0x00, 0x00, 0x00] =
      .ok (.setupUnknownStandard 0x0D ⟨true, 0x1F, 0, 0, 0⟩, []) := by decide
theorem test_decode_setupNonstandardClass :
    decode .setup [0x21, 0x09, 0x00, 0x02, 0x00, 0x00, 0x08, 0x00] =
      .ok (.setupNonstandardClass 0x09 ⟨false, 1, 0x200, 0, 8⟩, []) := by decide
theorem test_decode_setupNonstandardVendor :
    decode .setup [0xC0, 0x33, 0x34, 0x12, 0x78, 0x56, 0xFF, 0xFF] =
      .ok (.setupNonstandardVendor 0x33 ⟨true, 0, 0x1234, 0x5678, 0xFFFF⟩, []) := by decide
theorem test_decode_setupNonstandardReservedType :
    decode .setup [0xE0, 0x00, 0x00, 0x00, 0x00, 0x00, 0x00, 0x00] =
      .ok (.setupNonstandardReservedType 0x00 ⟨true, 0, 0, 0, 0⟩, []) := by decide

theorem test_encode_submit : encode (.submit 1 0x12345678) = [0x05, 0x01, 0, 0, 0x78, 0x56, 0x34, 0x12] := by decide
theorem test_encode_setAddress : encode (.setupSetAddress ⟨false, 0, 5, 0, 0⟩) = [0, 5, 5, 0, 0, 0, 0, 0] := by decide
theorem test_table_word_set_interface :
    decodeTableWord 64 0x0000000300020B01 = some (.setupSetInterface ⟨false, 1, 2, 3, 0⟩) := by decide

/-! ### States for the tests -/

/-- Request 1: eight bytes at 0x100, with a callback. -/
def reqA : Request := { Request.fresh with buf := 0x100, len := 8, callback := 5 }

/-- A configured bulk endpoint of max-packet size `m`, idle. -/
def openEp (d : EpDir) (m : Len) (e : Endpoint) : Endpoint :=
  { e with
    reserved := true, dir := d, type := .bulk, mps := m, banks := 2, state := .idle, irqEn := true
    ctl := { e.ctl with enable := true, mps := m, stallsentIe := true, txdoneIe := decide (d = .dirIn), rxrdyIe := decide (d = .dirOut) } }

/-- A configured device with driver 7, EP0 idle, ep1 IN and ep2 OUT of max-packet size 64 and idle, ep3 disabled, and
requests 1 and 2 (the spec's `S_cfg`, with two requests). -/
def sCfg : State :=
  let s0 := { State.reset with
    dev := { State.reset.dev with state := .configured, driver := 7, addr := 5, pullup := true }
    devAddr := ⟨5, true⟩
    devCtl := ⟨false, true, false⟩
    reqs := [(1, reqA), (2, { reqA with buf := 0x200 })]
    nextReq := 3 }
  ((((s0.modEp 1 (openEp .dirIn 64)).modEp 2 (openEp .dirOut 64)).modEp 0 fun e =>
    { e with mps := 64, banks := 2, state := .idle, ctl := { e.ctl with mps := 64, enable := true } }).unmaskEpIrq 0)

/-- `sCfg` with request 1 queued on endpoint `i` in state `x`. -/
def queuedOn (i : EpIx) (x : EpState) (q : Request) : State :=
  (sCfg.modEp i fun e => { e with state := x, stalled := decide (x = .stalled), queue := [1] }).modReq 1 fun _ => { q with owner := .engine }

/-- `s` with endpoints 2 and 3 served by DMA channels. -/
def withDma (s : State) : State :=
  { s with cfg := { s.cfg with dmaMap := #v[false, false, true, true, false, false, false, false, false, false, false,
    false, false, false, false, false] } }

/-- The next state, or the state itself. -/
def after (o : Host.Outcome State Fault Refusal) : State :=
  match o with
  | .next t => t
  | .fault _ => State.reset
  | .refused _ => State.reset

/-! ### Register words (V-ENC-12 to V-ENC-15) -/

theorem test_ep_ctl_of_ep0_after_bus_reset : ((sCfg.handle .busReset).ep 0).ctl.word = 0x00400079 := by decide
theorem test_ep_ctl_of_an_in_endpoint : (sCfg.ep 1).ctl.word = 0x00400029 := by decide
theorem test_ep_ctl_of_an_out_endpoint : (sCfg.ep 2).ctl.word = 0x00400031 := by decide
theorem test_ep_sta_after_setup : ((after (exec (.busSetup 0 0) sCfg)).ep 0).sta.word = 0x00080008 := by decide
theorem test_ep_sta_after_rxpkt :
    ((after (exec (.busRxpkt 2 [0, 1, 2, 3, 4, 5, 6, 7, 8, 9]) sCfg)).ep 2).sta.word = 0x000A0002 := by decide
theorem test_dma_sta_after_eob :
    ((after (exec (.busDmaEob 2 4000) (withDma sCfg))).ep 2).chan.staWord = 0x0FA00001 := by decide
theorem test_dma_sta_after_eoc : ((after (exec (.busDmaEoc 2) (withDma sCfg))).ep 2).chan.staWord = 0x00000002 := by decide
theorem test_dev_addr_5 : sCfg.devAddr.word = 0x85 := by decide
theorem test_int_enable_at_init : State.reset.intEnableWord = 0xFFFF0000001D := by decide
theorem test_int_enable_after_bus_reset : (State.reset.handle .busReset).intEnableWord = 0xFFFF0001001D := by decide
theorem test_int_enable_configured : sCfg.intEnableWord = 0xFFFF0007001D := by decide

/-! ### Single steps (95_test_vectors.md) -/

/-- V-OP-02. -/
theorem test_configure_ep4_is_refused :
    (after (exec (.configureEndpoint 4 ⟨0x81, 2, 64⟩) sCfg)).ret = .result .invalidArgs := by decide
/-- V-OP-03. -/
theorem test_configure_busy :
    (after (exec (.configureEndpoint 1 ⟨0x81, 2, 64⟩) (queuedOn 1 .sending reqA))).ret = .result .busy := by decide
/-- V-OP-09. -/
theorem test_disable_ctl_word :
    ((after (exec (.disableEndpoint 2) (queuedOn 2 .receiving reqA))).ep 2).ctl.word = 0x00400000 := by decide
/-- V-OP-12. -/
theorem test_allocate_request_failing_draw :
    (after (exec .allocateRequest { sCfg with reqPool := [false] })).ret = .request nullRef := by decide
/-- V-OP-13. -/
theorem test_free_of_queued_request_faults :
    exec (.freeRequest 1 1) (queuedOn 1 .sending reqA) = .fault .freeOfQueuedRequest := rfl
/-- V-OP-15 (2). -/
theorem test_submit_zero_length_read_completes :
    (after (exec (.submit 2 1) (sCfg.modReq 1 fun q => { q with len := 0, buf := 0 }))).cbList = [.done 2 1 .ok] := by decide
/-- V-OP-16. -/
theorem test_cancel_ctl_word :
    ((after (exec (.cancel 1 2) (queuedOn 1 .sending reqA))).ep 1).ctl.word = 0x00400029 := by decide
/-- V-OP-20. -/
theorem test_stall_aborts_the_head :
    let t := after (exec (.stall 2) (queuedOn 2 .receiving { reqA with len := 100, xfrd := 64 }))
    t.cbList = [.done 2 1 .ioError] ∧ (t.req 1).xfrd = 64 ∧ (t.ep 2).stalled = true := by decide
/-- V-OP-23. -/
theorem test_resume_stalled_out_endpoint :
    ((after (exec (.resumeStall 2) (queuedOn 2 .stalled reqA))).ep 2).state = .receiving := by decide
/-- V-OP-24 and V-OP-25. -/
theorem test_allocate_endpoint_takes_the_free_one :
    (after (exec (.allocateEndpoint 0 true .bulk) sCfg)).ret = .endpoint (some 3) := by decide
/-- V-OP-26. -/
theorem test_free_endpoint_0_is_refused : (after (exec (.freeEndpoint 0) sCfg)).ret = .result .invalidArgs := by decide
/-- V-OP-28. -/
theorem test_frame_number_keeps_11_bits :
    (after (exec .getFrameNumber (after (exec (.busSof 0x1234) sCfg)))).ret = .frame 0x0234 := by decide
/-- V-OP-30. -/
theorem test_wakeup_dev_ctl :
    (after (exec .wakeup { sCfg with dev := { sCfg.dev with state := .suspended, prevstate := .configured } })).devCtl.word
      = 0x03 := by decide
/-- V-OP-31. -/
theorem test_get_status_self_powered :
    ((after (exec (.setupGetStatus ⟨true, 0, 0, 0, 2⟩) { sCfg with dev := { sCfg.dev with selfpowered := true } })).ep 0).fifo.tx
      = [[0x01, 0x00]] := by decide
/-- V-OP-32. -/
theorem test_detach_is_powered : (after (exec (.setPullup false) sCfg)).dev.state = .powered := by decide
/-- V-OP-33. -/
theorem test_second_bind_is_refused : (after (exec (.bind 9) sCfg)).ret = .result .invalidArgs := by decide
/-- V-OP-34. -/
theorem test_unbind_completes_with_shutdown :
    (after (exec .unbind (queuedOn 1 .sending reqA))).cbList = [.done 1 1 .shutdown] := by decide
/-- R181's packet carving: the first packet of a write longer than the max-packet size. -/
theorem test_submit_sends_max_packet :
    ((after (exec (.submit 1 1) (sCfg.modReq 1 fun q => { q with len := 100 }))).ep 1).fifo.tx.map List.length
      = [64] := by decide
/-- V-OP-35: a forwarded request with no driver. -/
theorem test_forward_without_driver_stalls :
    ((after (exec (.setupGetDescriptor ⟨true, 0, 0x100, 0, 0x12⟩) { sCfg with dev := { sCfg.dev with driver := nullRef } })).ep
      0).state = .stalled := by decide
/-- R256. -/
theorem test_synch_frame_answers :
    ((after (exec (.setupSynchFrame ⟨true, 2, 0, 1, 2⟩) sCfg)).ep 0).state = .ep0StatusIn := by decide

/-- R22's column "after bus reset": every bank index is 0. -/
theorem test_bus_reset_zeroes_the_bank_index :
    (((sCfg.modEp 1 fun e => { e with bank := 1 }).handle .busReset).ep 1).bank = 0 := by decide
/-- R97, I20: a disabled endpoint configured before still has its max-packet size. -/
theorem test_oversize_packet_on_disabled_endpoint :
    exec (.busRxpkt 2 (List.replicate 65 0)) (after (exec (.disableEndpoint 2) sCfg)) = .refused .oversizePacket := rfl
/-- R31, R366: a request whose completion is not delivered yet is still the engine's. -/
theorem test_submit_of_undelivered_request :
    (after (exec (.submit 1 1) { sCfg with stack := [.pending (.done 2 1 .ok)] })).ret = .result .invalidArgs ∧
    (after (exec (.submit 1 1) { sCfg with stack := [.active (.done 2 1 .ok)] })).ret = .result .ok := by decide
/-- R204: an OUT slice takes its packets in the order they came. -/
theorem test_out_slice_takes_packets_in_order :
    let s := after (exec (.submit 2 1) (withDma sCfg))
    let t := after (exec (.busDmaEoc 2) (after (exec (.busRxpkt 2 [5, 6, 7, 8]) (after (exec (.busRxpkt 2 [1, 2, 3, 4]) s)))))
    readBytes t.mem 0x100 8 = [1, 2, 3, 4, 5, 6, 7, 8] ∧ (t.ep 2).fifo.rx = [] := by decide
/-- R11, R313: the packet of the next write does not overwrite one that has not been sent. -/
theorem test_stall_sent_keeps_the_unsent_packet :
    let s := after (exec (.submit 1 2) (after (exec (.submit 1 1) { sCfg with mem := [(0x100, 7), (0x200, 9)] })))
    (((s.stallSent 1).ep 1).fifo.tx.map (List.take 1)) = [[7], [9]] := by decide

/-! ### Witnesses: states and operands that meet the obligations' hypotheses -/

theorem accepts_iff {s : State} {i : EpIx} {h : Ref} : s.accepts i h ↔
    s.validEp i = true ∧ (s.ep i).reserved = true ∧ h ≠ nullRef ∧ s.hasReq h = true ∧ (s.req h).callback ≠ nullRef ∧
      ((s.req h).buf = 0 → (s.req h).len = 0) ∧ s.engineOwns h = false ∧ s.dev.driver ≠ nullRef ∧
      (s.ep i).state ≠ .disabled :=
  ⟨fun ⟨a, b, c, d, e, f, g, h, i⟩ => ⟨a, b, c, d, e, f, g, h, i⟩, fun ⟨a, b, c, d, e, f, g, h, i⟩ => ⟨a, b, c, d, e, f, g, h, i⟩⟩

theorem witness_DecodeOfEncode :
    (Instr.invalidCommand 0x00000010).wellFormed = true ∧ (Instr.invalidCommand 0xFFFFFFFF).wellFormed = true ∧
    (Instr.busRxpkt 15 []).wellFormed = true ∧ (Instr.setupUnknownStandard 0x02 ⟨true, 31, 1, 2, 3⟩).wellFormed = true := by
  decide
theorem witness_DecodeOfEncode_longest_packet (bytes : List Byte) (h : bytes.length = 65535) :
    (Instr.busRxpkt 1 bytes).wellFormed = true := by simp [Instr.wellFormed, h]
theorem witness_InvalidCommandsChangeNothing :
    (0x00008005 : Word).extractLsb' 15 17 ≠ 0 ∧ (0x80000001 : Word).extractLsb' 15 17 ≠ 0 ∧
    ((0x00000100 : Word).extractLsb' 0 8).toNat = 0 ∧ 0x0F < ((0x00000010 : Word).extractLsb' 0 8).toNat ∧
    0x0F < ((0x000000FF : Word).extractLsb' 0 8).toNat := by decide

/-- A state inside a callback, with GET_FRAME_NUMBER next. -/
def sInCallback : State := { sCfg with stack := [.active .onResume], input := [.cmd [0x0A, 0, 0, 0, 0, 0, 0, 0]] }
/-- A state inside a pass, with a SUSPEND stimulus arriving now. -/
def sInPass : State := { sCfg with stack := [.dispatch []], input := [.stim true [0x81]] }
theorem witness_StepRunsDecodedRecord :
    sInCallback.stack = .active .onResume :: [] ∧ sInCallback.input = .cmd [0x0A, 0, 0, 0, 0, 0, 0, 0] :: [] ∧
    decode .command [0x0A, 0, 0, 0, 0, 0, 0, 0] = .ok (.getFrameNumber, []) ∧
    ({ sCfg with input := [.stim false [0x81]] } : State).stack = [] ∧
    decode .stimulus [0x81] = .ok (.busSuspend, []) ∧
    sInPass.stack = .dispatch [] :: [] ∧ sInPass.input = .stim true [0x81] :: [] := by decide

/-- EP0's SETUP bank holds SET_ADDRESS(5) and the dispatcher stands before EP0. -/
def sSetup : State := sCfg.withFetchWord 64 0x0000000000050500
theorem witness_StepRunsSetupPacket :
    portOf (.setupSetAddress ⟨false, 0, 5, 0, 0⟩) = .setup ∧
    (Instr.setupSetAddress ⟨false, 0, 5, 0, 0⟩).wellFormed = true ∧
    sSetup.stack = .dispatch (.ep 0 :: []) :: [] ∧ sSetup.input = [] ∧ sSetup.stillPending (.ep 0) = true ∧
    (sSetup.ep 0).enabledSta = ⟨false, false, false, true, 8⟩ ∧
    (sSetup.ep 0).fifo.setup = encode (.setupSetAddress ⟨false, 0, 5, 0, 0⟩) := by decide

/-- A pass whose first source (SOF, not enabled) is skipped. -/
def sPass : State :=
  { sCfg with stack := [.dispatch [.sof, .suspend]], intPending := { sCfg.intPending with suspend := true, sof := true } }
theorem witness_DispatcherRunsStillPendingSources :
    ({ sCfg with stack := [.pending .onResume] } : State).stack = .pending .onResume :: [] ∧
    sPass.stack = .dispatch ([.sof] ++ .suspend :: []) :: [] ∧ sPass.input = [] ∧
    (∀ x, x ∈ [Source.sof] → sPass.stillPending x = false) ∧ sPass.stillPending .suspend = true := by decide
theorem witness_DispatcherRunsStillPendingSources_entry :
    let s := { sPass with stack := [], input := [.irq] }
    let t := { sPass with stack := [.active .onResume, .dispatch []] }
    (s.stack = [] ∧ s.input = .irq :: [] ∧ s.stillPending .suspend = true) ∧
    (t.stack = .active .onResume :: [.dispatch []] ∧ t.input = [] ∧ .dispatch [] ∈ t.stack) := by decide
theorem witness_DispatcherRunsStillPendingSources_nothing_pending : ∀ x, sCfg.stillPending x = false := by
  intro x
  cases x with
  | dma c => revert c; decide
  | ep i => revert i; decide
  | suspend => decide
  | sof => decide
  | resume => decide
  | busReset => decide
  | upResume => decide

theorem witness_RequestRecordsAreMadeAndDestroyed :
    sCfg.reqPool.headD true = true ∧ sCfg.nextReq ≠ nullRef ∧
    ({ sCfg with reqPool := [false] } : State).reqPool.headD true = false ∧ sCfg.hasReq 3 = false ∧
    (queuedOn 1 .sending reqA).hasReq 1 = true ∧ ((queuedOn 1 .sending reqA).req 1).owner = .engine ∧
    (1 : Ref) ≠ nullRef ∧ sCfg.hasReq 1 = true ∧ (sCfg.req 1).owner = .driver := by decide
/-- The completion of request 1 is not delivered yet. -/
def sUndelivered : State := { sCfg with stack := [.pending (.done 2 1 .ok)] }
/-- The class driver is about to set the fields of request `h`. -/
def settingReq (s : State) (h : Ref) : State := { s with input := [.setReq h 0x300 4 true 5] }
theorem undelivered_none (s : State) (hc : s.cbList = []) (hs : s.stack = []) (h : Ref) :
    ¬∃ k r, .done k h r ∈ s.cbList ∨ Ctx.pending (.done k h r) ∈ s.stack := by simp [hc, hs]
theorem witness_RequestRecordsAreMadeAndDestroyed_undelivered :
    sUndelivered.hasReq 1 = true ∧ (sUndelivered.req 1).owner = .driver ∧
    (∃ k r, Callback.done k 1 r ∈ sUndelivered.cbList ∨ Ctx.pending (.done k 1 r) ∈ sUndelivered.stack) ∧
    ¬∃ k r, Callback.done k 1 r ∈ sCfg.cbList ∨ Ctx.pending (.done k 1 r) ∈ sCfg.stack :=
  ⟨by decide, by decide, ⟨2, .ok, by decide⟩, undelivered_none _ rfl rfl _⟩
theorem witness_RequestRecordsAreMadeAndDestroyed_set :
    (settingReq sCfg 1).stack = [] ∧ (settingReq sCfg 1).input = .setReq 1 0x300 4 true 5 :: [] ∧
    (settingReq sCfg 1).hasReq 1 = true ∧ (settingReq sCfg 3).hasReq 3 = false ∧
    ((settingReq (queuedOn 1 .sending reqA) 1).req 1).owner = .engine ∧
    (settingReq { sCfg with stack := [.active .onResume] } 1).stack = .active .onResume :: [] := by decide
theorem witness_SubmitAndConfigureCheckInOrder_submit :
    sCfg.validEp 3 = true ∧ sCfg.validEp 4 = false ∧ (sCfg.ep 3).reserved = false ∧ sCfg.hasReq 3 = false ∧
    ((sCfg.modReq 1 fun q => { q with callback := nullRef }).req 1).callback = nullRef ∧
    ((sCfg.modReq 1 fun q => { q with buf := 0 }).req 1).buf = 0 ∧
    ((sCfg.modReq 1 fun q => { q with buf := 0 }).req 1).len ≠ 0 ∧
    ((queuedOn 1 .sending reqA).req 1).owner = .engine ∧ (sCfg.ep 1).reserved = true ∧
    ({ sCfg with dev := { sCfg.dev with driver := nullRef } } : State).dev.driver = nullRef ∧
    ((sCfg.setEpState 1 .disabled).ep 1).state = .disabled := by decide
theorem witness_SubmitAcceptedAnswersOk_idle : sCfg.accepts 1 1 ∧ (sCfg.ep 1).state = .idle :=
  ⟨accepts_iff.mpr (by decide), by decide⟩
theorem witness_SubmitAcceptedAnswersOk_moving :
    (queuedOn 1 .sending reqA).accepts 1 2 ∧ ((queuedOn 1 .sending reqA).ep 1).state ≠ .idle :=
  ⟨accepts_iff.mpr (by decide), by decide⟩
theorem witness_SubmitStartsAWrite :
    sCfg.accepts 1 1 ∧ (sCfg.ep 1).state = .idle ∧ (sCfg.ep 1).queue = [] ∧ sCfg.hasDma 1 = false ∧ sCfg.isIn 1 = true :=
  ⟨accepts_iff.mpr (by decide), by decide⟩
theorem witness_SubmitStartsAWrite_zero_length_on_ep0 :
    (sCfg.modReq 1 fun q => { q with len := 0, buf := 0 }).accepts 0 1 ∧ (sCfg.ep 0).state = .idle ∧
    (sCfg.ep 0).queue = [] ∧ sCfg.hasDma 0 = false ∧ sCfg.isIn 0 = true :=
  ⟨accepts_iff.mpr (by decide), by decide⟩

/-- Requests 1 and 2 queued on an `Idle` endpoint `i`, as between `complete` and the next start; request 1 has length
`n`. -/
def sNext (s : State) (i : EpIx) (n : Len) : State :=
  ((s.modEp i fun e => { e with queue := [1, 2] }).modReq 1 fun q => { q with owner := .engine, len := n }).modReq 2
    fun q => { q with owner := .engine }
theorem witness_SubmitStartsAWrite_next_of_the_queue :
    ((sNext sCfg 1 8).ep 1).state = .idle ∧ (sNext sCfg 1 8).hasDma 1 = false ∧ (sNext sCfg 1 8).isIn 1 = true ∧
    ((sNext sCfg 1 8).ep 1).queue = 1 :: [2] ∧ (sNext sCfg 1 8).hasReq 1 = true ∧
    ((sNext sCfg 1 8).req 1).started = false ∧ ((sNext sCfg 1 8).req 1).xfrd = 0 ∧
    ((sNext sCfg 1 8).req 1).inflight = 0 := by decide

/-- A packet of five bytes is held for ep2. -/
def sHeld : State := (after (exec (.busRxpkt 2 [1, 2, 3, 4, 5]) sCfg)).holdRx 2
theorem witness_SubmitStartsARead :
    sCfg.accepts 2 1 ∧ (sCfg.ep 2).state = .idle ∧ (sCfg.ep 2).queue = [] ∧ sCfg.hasDma 2 = false ∧ sCfg.isIn 2 = false ∧
    (sCfg.req 1).len ≠ 0 ∧ (sCfg.ep 2).rxpend = false :=
  ⟨accepts_iff.mpr (by decide), by decide⟩
theorem witness_SubmitStartsARead_zero_length :
    (sCfg.modReq 1 fun q => { q with len := 0 }).accepts 2 1 ∧ ((sCfg.modReq 1 fun q => { q with len := 0 }).req 1).len = 0 :=
  ⟨accepts_iff.mpr (by decide), by decide⟩
theorem witness_SubmitStartsARead_held_packet :
    sHeld.accepts 2 1 ∧ (sHeld.ep 2).state = .idle ∧ (sHeld.ep 2).queue = [] ∧ sHeld.hasDma 2 = false ∧
    sHeld.isIn 2 = false ∧ (sHeld.req 1).len ≠ 0 ∧ (sHeld.ep 2).rxpend = true ∧ Memory.wf sHeld.mem = true ∧
    (5#16).toNat ≤ (sHeld.ep 2).fifo.rx.length :=
  ⟨accepts_iff.mpr (by decide), by decide⟩

theorem witness_SubmitStartsARead_next_of_the_queue :
    ((sNext sHeld 2 8).ep 2).state = .idle ∧ (sNext sHeld 2 8).hasDma 2 = false ∧ (sNext sHeld 2 8).isIn 2 = false ∧
    ((sNext sHeld 2 8).ep 2).queue = 1 :: [2] ∧ (sNext sHeld 2 8).hasReq 1 = true ∧ ((sNext sHeld 2 8).req 1).xfrd = 0 ∧
    ((sNext sHeld 2 8).req 1).len ≠ 0 ∧ ((sNext sHeld 2 8).ep 2).rxpend = true ∧ ((sNext sHeld 2 0).req 1).len = 0 ∧
    ((sNext sCfg 2 8).ep 2).rxpend = false := by decide

/-- `sCfg` with DMA on ep2 (OUT) and ep3 (IN). -/
def sDma : State := withDma (sCfg.modEp 3 (openEp .dirIn 64))
theorem witness_SubmitStartsADmaSlice :
    sDma.accepts 2 1 ∧ (sDma.ep 2).state = .idle ∧ (sDma.ep 2).queue = [] ∧ sDma.hasDma 2 = true ∧ (sDma.req 1).len ≠ 0 :=
  ⟨accepts_iff.mpr (by decide), by decide⟩
theorem witness_SubmitStartsADmaSlice_zero_length :
    (sDma.modReq 1 fun q => { q with len := 0 }).accepts 2 1 ∧ (sDma.modReq 1 fun q => { q with len := 0 }).accepts 3 1 ∧
    sDma.hasDma 3 = true ∧ sDma.isIn 2 = false ∧ sDma.isIn 3 = true ∧ (sDma.ep 3).state = .idle ∧ (sDma.ep 3).queue = [] :=
  ⟨accepts_iff.mpr (by decide), accepts_iff.mpr (by decide), by decide⟩

theorem witness_SubmitStartsADmaSlice_next_of_the_queue :
    ((sNext sDma 2 8).ep 2).state = .idle ∧ (sNext sDma 2 8).hasDma 2 = true ∧ ((sNext sDma 2 8).ep 2).queue = 1 :: [2] ∧
    (sNext sDma 2 8).hasReq 1 = true ∧ ((sNext sDma 2 8).req 1).xfrd = 0 ∧ ((sNext sDma 2 8).req 1).len ≠ 0 ∧
    (sNext sDma 2 8).isIn 2 = false ∧ ((sNext sDma 3 8).ep 3).queue = 1 :: [2] ∧ (sNext sDma 3 8).isIn 3 = true ∧
    ((sNext sDma 3 0).req 1).len = 0 := by decide

theorem witness_CancelDrainsTheQueue : sCfg.validEp 4 = false ∧ sCfg.validEp 3 = true ∧ sCfg.validEp 0 = true := by decide
theorem witness_DisableShutsTheEndpointDown :
    sCfg.validEp 4 = false ∧ sCfg.validEp 3 = true ∧ (sCfg.ep 3).reserved = false ∧ (1 : EpIx) ≠ 0 ∧
    sCfg.validEp 1 = true ∧ (sCfg.ep 1).reserved = true := by decide
theorem witness_StallAbortsOnlyTheHead :
    sCfg.validEp 4 = false ∧ sCfg.validEp 3 = true ∧ (sCfg.ep 3).state = .disabled ∧
    ((queuedOn 1 .stalled reqA).ep 1).state = .stalled ∧ (queuedOn 1 .sending reqA).validEp 1 = true ∧
    ((queuedOn 1 .sending reqA).ep 1).state ≠ .disabled ∧ ((queuedOn 1 .sending reqA).ep 1).state ≠ .stalled ∧
    ((queuedOn 1 .sending reqA).ep 1).queue = 1 :: [] ∧ (queuedOn 1 .sending reqA).hasReq 1 = true := by decide
theorem witness_ResumeStallRestartsTheQueue :
    sCfg.validEp 4 = false ∧ sCfg.validEp 1 = true ∧ (sCfg.ep 1).state ≠ .stalled ∧
    ((queuedOn 1 .stalled reqA).ep 1).state = .stalled ∧ ((sCfg.setEpState 3 .stalled).ep 3).state = .stalled ∧
    ((sCfg.setEpState 3 .stalled).ep 3).queue = [] := by decide

theorem witness_ResumeStallRestartsTheQueue_queued :
    sCfg.validEp 2 = true ∧ ((queuedOn 2 .stalled reqA).ep 2).state = .stalled ∧ ((queuedOn 2 .stalled reqA).ep 2).queue = [1] :=
  by decide
/-- R141, R245, V-OP-23: the queued write starts, it is not completed. -/
theorem test_resumed_write_is_in_flight :
    let t := after (exec (.resumeStall 1) (queuedOn 1 .stalled reqA))
    (t.ep 1).state = .sending ∧ (t.ep 1).queue = [1] ∧ (t.req 1).inflight = 8 ∧ t.cbList = [] := by decide

/-- `sCfg` on an implementation that cannot map 1024-byte bulk packets on ep1. -/
def sTight : State := { sCfg with cfg := { sCfg.cfg with geometryRefused := [(1, .bulk, 1024, 2)] } }
theorem witness_SubmitAndConfigureCheckInOrder_configure :
    sCfg.validEp 4 = false ∧ (sCfg.ep 3).reserved = false ∧ ((queuedOn 1 .sending reqA).ep 1).state = .sending ∧
    ((queuedOn 1 .sending reqA).ep 1).reserved = true ∧ (⟨0x81, 2, 0⟩ : EpDesc).mps = 0 ∧
    ¬((1 : EpIx) = 0 ↔ descType ⟨0x81, 0, 64⟩ = .control) ∧ ¬((0 : EpIx) = 0 ↔ descType ⟨0, 2, 64⟩ = .control) ∧
    sTight.validEp 1 = true ∧ (sTight.ep 1).reserved = true ∧ (sTight.ep 1).state = .idle ∧
    sTight.geometryOk 1 (descType ⟨0x81, 2, 1024⟩) 1024 (sTight.cfg.epBanks.get 1) = false := by decide
theorem witness_ConfigureProgramsTheEndpoint :
    sCfg.validEp 1 = true ∧ (sCfg.ep 1).reserved = true ∧ (sCfg.ep 1).state = .idle ∧
    ((queuedOn 1 .stalled reqA).ep 1).state = .stalled ∧ (⟨0x81, 2, 64⟩ : EpDesc).mps ≠ 0 ∧
    ((1 : EpIx) = 0 ↔ descType ⟨0x81, 2, 64⟩ = .control) ∧ ((0 : EpIx) = 0 ↔ descType ⟨0, 0, 64⟩ = .control) ∧
    sCfg.geometryOk 1 (descType ⟨0x81, 2, 64⟩) 64 (sCfg.cfg.epBanks.get 1) = true ∧ sCfg.validEp 0 = true ∧
    (sCfg.ep 0).reserved = true ∧ (sCfg.ep 1).queue = [] ∧ ((queuedOn 1 .stalled reqA).ep 1).queue = [1] := by decide
theorem witness_AllocateEndpointTakesLowestFree :
    let free := fun (n k : EpIx) => k ≠ 0 ∧ (n = 0 ∨ k = n) ∧ sCfg.validEp k = true ∧ (sCfg.ep k).reserved = false ∧
      sCfg.epSupports k .bulk = true
    free 0 3 ∧ (∀ j, j < 3 → ¬free 0 j) ∧ free 3 3 ∧ (∀ j, j < 3 → ¬free 3 j) ∧ ∀ k, ¬free 1 k := by decide
theorem witness_ReservationsAreKept :
    (sCfg.ep 1).reserved = true ∧ Instr.stall 1 ≠ .freeEndpoint 1 ∧ Instr.freeEndpoint 2 ≠ .freeEndpoint 1 := by decide
theorem witness_ReservationsAreKept_step :
    let s := { sCfg with stack := [.active (.onSetup 0 none)], input := [.ret .ioError] }
    (s.ep 1).reserved = true ∧ s.input.head? = some (.ret .ioError) ∧
    decode .command [0x09, 0x02, 0, 0, 0, 0, 0, 0] = .ok (.freeEndpoint 2, []) := by decide
theorem witness_ReservationsAreKept_step_next :
    ∃ t, step { sCfg with stack := [.active (.onSetup 0 none)], input := [.ret .ioError] } = .next t := ⟨_, rfl⟩
theorem witness_ReservationsAreKept_next : ∃ t, exec (.freeEndpoint 2) sCfg = .next t := ⟨_, rfl⟩
theorem witness_GetFrameNumberReturnsFnum : ∃ t, exec (.busSof 0x7FF) sCfg = .next t := ⟨_, rfl⟩

/-- RWAKE_DONE arrives during the wait. -/
def sRwakeDone : State := { sCfg with input := [.stim true [0x8C]] }
theorem witness_WakeupResumesAndSignals :
    1 ≤ sCfg.cfg.wakeupSpinBound ∧ sCfg.input = [] ∧ sRwakeDone.input = .stim true (0x8C :: []) :: [] := by decide
theorem witness_UnbindShutsEverythingDown :
    1 ≤ sCfg.cfg.numEp ∧ sCfg.dev.driver ≠ nullRef ∧ State.reset.dev.driver = nullRef ∧ 1 ≤ State.reset.cfg.numEp ∧
    sCfg.validEp 3 = true ∧ (3 : EpIx) ≠ 0 ∧ sCfg.validEp 4 = false ∧
    (queuedOn 1 .sending reqA).hasReq 1 = true ∧ ((queuedOn 1 .sending reqA).ep 1).queue = [1] := by decide

/-! Stimuli. -/

theorem witness_EndpointStimuliWriteStatusAndBank :
    sCfg.validEp 2 = true ∧ (sCfg.ep 2).ctl.enable = true ∧ (sCfg.ep 2).mps.toNat < (List.replicate 65 (0 : Byte)).length ∧
    (List.replicate 64 (0 : Byte)).length ≤ (sCfg.ep 2).mps.toNat ∧ sCfg.validEp 3 = true ∧
    ¬((sCfg.ep 3).ctl.enable = true ∨ (sCfg.ep 3).mps ≠ 0) ∧ sCfg.validEp 4 = false := by decide

theorem witness_EndpointStimuliWriteStatusAndBank_held :
    let s := after (exec .busBusreset sHeld)
    (sHeld.validEp 2 = true ∧ [(9 : Byte)].length ≤ (sHeld.ep 2).mps.toNat ∧ (sHeld.ep 2).rxpend = true ∧
      (sHeld.ep 2).sta.rxrdy = true) ∧
    (s.validEp 2 = true ∧ [(9 : Byte)].length ≤ (s.ep 2).mps.toNat ∧ (s.ep 2).rxpend = true ∧
      ¬(s.ep 2).sta.rxrdy = true) := by decide
/-- R187, R189: a packet sent while another is held does not arrive, and the next read gets the held one. -/
theorem test_held_packet_is_kept :
    let t := after (exec (.submit 2 1) (after (exec (.busRxpkt 2 [9, 9]) sHeld)))
    (t.req 1).xfrd = 5 ∧ readBytes t.mem 0x100 5 = [1, 2, 3, 4, 5] := by decide

/-- ep3 is sending request 1 by DMA. -/
def sSlice : State := after (exec (.submit 3 1) sDma)
theorem witness_DmaStimuliReportTheirStatus :
    sSlice.validEp 3 = true ∧ sSlice.hasDma 3 = true ∧ (8 : BitVec 16) ≤ (sSlice.ep 3).chan.count ∧
    (sSlice.ep 3).chan.running = true ∧ sSlice.isIn 3 = true ∧ sSlice.validEp 4 = false ∧ sSlice.hasDma 1 = false := by decide

/-- ep2 is receiving request 1 by DMA, and two packets have come. -/
def sOutSlice : State :=
  after (exec (.busRxpkt 2 [5, 6, 7, 8]) (after (exec (.busRxpkt 2 [1, 2, 3, 4]) (after (exec (.submit 2 1) sDma)))))
theorem witness_DmaStimuliReportTheirStatus_out :
    sOutSlice.validEp 2 = true ∧ sOutSlice.hasDma 2 = true ∧ (sOutSlice.ep 2).chan.running = true ∧
    sOutSlice.isIn 2 = false ∧ Memory.wf sOutSlice.mem = true ∧ (sOutSlice.ep 2).fifo.rx = [1, 2, 3, 4, 5, 6, 7, 8] ∧
    (sOutSlice.ep 2).chan.count.toNat ≤ (sOutSlice.ep 2).fifo.rx.length ∧ (8 : BitVec 16) ≤ (sOutSlice.ep 2).chan.count ∧
    ¬(9 : BitVec 16) ≤ (sOutSlice.ep 2).chan.count ∧ ((withDma sCfg).ep 2).chan.running = false := by decide

/-! SETUP packets. -/

theorem witness_SetupOnDisabledEp0IsDiscarded :
    portOf (.setupGetStatus ⟨true, 0, 0, 0, 2⟩) = .setup ∧ (State.reset.ep 0).state = .disabled := by decide
theorem witness_SetupWithOutDataWaits :
    setupArgs (.setupNonstandardClass 9 ⟨false, 1, 0, 0, 64⟩) = some ⟨false, 1, 0, 0, 64⟩ ∧
    setupArgs (.setupNonstandardClass 9 ⟨false, 1, 0, 0, 65⟩) = some ⟨false, 1, 0, 0, 65⟩ ∧ (sCfg.ep 0).state ≠ .disabled ∧
    outData ⟨false, 1, 0, 0, 64⟩ = true ∧ outData ⟨false, 1, 0, 0, 65⟩ = true ∧
    (64#16).toNat ≤ sCfg.cfg.ep0ScratchSize ∧ sCfg.cfg.ep0ScratchSize < (65#16).toNat := by decide
theorem witness_GetStatusAnswersTwoBytes :
    (sCfg.ep 0).state ≠ .disabled ∧ outData ⟨true, 0, 0, 0, 2⟩ = false ∧ outData ⟨true, 2, 0, 3, 2⟩ = false ∧
    outData ⟨true, 0, 0, 0, 1⟩ = false ∧ (3 : EpIx).val = ((3 : BitVec 16).extractLsb' 0 8).toNat ∧ sCfg.validEp 3 = true ∧
    (∀ k : EpIx, k.val = ((4 : BitVec 16).extractLsb' 0 8).toNat → sCfg.validEp k = false) ∧
    (∀ k : EpIx, k.val = ((0x81 : BitVec 16).extractLsb' 0 8).toNat → sCfg.validEp k = false) ∧
    (0x00FF : BitVec 16).extractLsb' 8 8 = 0 ∧ (0x0100 : BitVec 16).extractLsb' 8 8 ≠ 0 := by decide

/-- ep1 is stalled with request 1 queued, and so halted. -/
def sHalted : State := (queuedOn 1 .stalled reqA).modEp 1 fun e => { e with halted := true }
theorem witness_ClearFeatureClearsAHalt :
    (sHalted.ep 0).state ≠ .disabled ∧ outData ⟨false, 2, 0, 1, 0⟩ = false ∧ outData ⟨true, 2, 1, 1, 2⟩ = false ∧
    (1 : EpIx).val = ((1 : BitVec 16).extractLsb' 0 8).toNat ∧ sHalted.validEp 1 = true ∧ (sHalted.ep 1).state = .stalled ∧
    (sCfg.ep 1).state ≠ .stalled ∧ ((sCfg.setEpState 3 .stalled).ep 3).queue = [] ∧
    (∀ k : EpIx, k.val = ((4 : BitVec 16).extractLsb' 0 8).toNat → sHalted.validEp k = false) := by decide
theorem witness_SetFeatureHaltsAnEndpoint :
    (sCfg.ep 0).state ≠ .disabled ∧ outData ⟨false, 2, 0, 1, 0⟩ = false ∧ sCfg.validEp 1 = true ∧
    (1 : EpIx).val = ((1 : BitVec 16).extractLsb' 0 8).toNat ∧ (sCfg.ep 1).state ≠ .disabled ∧
    (sCfg.ep 3).state = .disabled ∧ (sHalted.ep 1).state = .stalled ∧ (queuedOn 1 .sending reqA).moving 1 = true ∧
    (∀ k : EpIx, k.val = ((4 : BitVec 16).extractLsb' 0 8).toNat → sCfg.validEp k = false) := by decide
theorem witness_SetAddressOnlyRecords :
    (sCfg.ep 0).state ≠ .disabled ∧ outData ⟨false, 0, 127, 0, 0⟩ = false ∧ (127 : BitVec 16).toNat ≤ 127 ∧
    outData ⟨false, 0, 128, 0, 0⟩ = false ∧ ¬(128 : BitVec 16).toNat ≤ 127 := by decide
theorem witness_OtherRequestsForwardAnswerOrStall :
    (sCfg.ep 0).state ≠ .disabled ∧ outData ⟨true, 0, 0, 0, 1⟩ = false ∧ outData ⟨false, 1, 0, 0, 0⟩ = false := by decide

/-! Handlers. -/

theorem witness_BusResetRestoresTheDefaultState :
    1 ≤ sCfg.cfg.numEp ∧ sCfg.validEp 3 = true ∧ (3 : EpIx) ≠ 0 ∧ sCfg.validEp 4 = false ∧
    (queuedOn 1 .sending reqA).hasReq 1 = true ∧ ((queuedOn 1 .sending reqA).ep 1).queue = [1] := by decide
theorem witness_SuspendSavesAndResumeRestores :
    sCfg.dev.state ≠ .suspended ∧ State.reset.dev.state = .suspended := by decide
theorem witness_SuspendAndResumeAreIdempotent :
    State.reset.dev.state = .suspended ∧ sCfg.dev.state ≠ .suspended := by decide
theorem witness_SofAndUpstreamResumeOnlyAcknowledge : ∃ t, exec (.busSof 0xFFFF) sCfg = .next t := ⟨_, rfl⟩

/-- EP0 waits for the status packet of SET_ADDRESS(5), whose TX-done has come, and the dispatcher stands before it. -/
def sAddress : State :=
  let s1 := after (exec (.setupSetAddress ⟨false, 0, 5, 0, 0⟩) { sCfg with devAddr := ⟨0, false⟩ })
  { after (exec (.busTxdone 0) s1) with stack := [.dispatch [.ep 0]] }
theorem witness_TxDoneAppliesTheAddress :
    (sAddress.ep 0).state = .ep0Address ∧ (sAddress.ep 0).queue = [] ∧ ((sAddress.enqueue 0 1).ep 0).queue ≠ [] := by decide

/-- `on_setup` returns `r` for packet `p`. -/
def sOnSetup (p : SetupPacket) (r : Result) : State :=
  { sCfg with stack := [.active (.onSetup p none)], input := [.ret r], dev := { sCfg.dev with ctrl := p } }
theorem witness_OnSetupReturnActs :
    (sOnSetup 0x0000000000010900 .ok).stack = .active (.onSetup 0x0000000000010900 none) :: [] ∧
    (sOnSetup 0x0000000000010900 .ok).input = .ret .ok :: [] ∧ (sOnSetup 0x0000000000010900 .ok).cbList = [] ∧
    ((sOnSetup 0x0000000000010900 .ok).dev.ctrl.extractLsb' 5 2 = 0 ∧
      (sOnSetup 0x0000000000010900 .ok).dev.ctrl.extractLsb' 8 8 = 0x09 ∧
      (sOnSetup 0x0000000000010900 .ok).dev.state = .configured) ∧
    (sOnSetup 0x0012000001000680 .ok).dev.ctrl.extractLsb' 8 8 ≠ 0x09 ∧
    (sOnSetup 0x0012000001000680 .ioError).input = .ret .ioError :: [] ∧
    ((sOnSetup 0x0012000001000680 .ioError).ep 0).state ≠ .disabled := by decide

theorem witness_EndpointInterruptHandlesItsSample :
    let s := sSetup.modEp 1 fun e => { e with sta := { e.sta with setup := true }, ctl := { e.ctl with setupIe := true } }
    (sCfg.ep 1).enabledSta.setup = false ∧ (s.ep 1).enabledSta.setup = true ∧ (s.ep 0).enabledSta.setup = true ∧
    (1 : EpIx) ≠ 0 ∧ (s.ep 0).state ≠ .disabled ∧
    ((s.modSta 0 fun t => { t with bytecnt := 7 }).ep 0).sta.bytecnt ≠ 8 := by decide

/-- ep1 is sending request 1 of length `n` with `k` bytes in flight. -/
def sSending (n k : Len) : State := queuedOn 1 .sending { reqA with len := n, inflight := k, started := true }
theorem witness_TxDoneSendsTheNextPacket :
    ((sSending 100 64).ep 1).state = .sending ∧ (sSending 100 64).hasDma 1 = false ∧
    ((sSending 100 64).ep 1).queue = 1 :: [] ∧ (sSending 100 64).hasReq 1 = true ∧ ((sSending 100 64).req 1).started = true ∧
    ((sSending 100 64).req 1).xfrd.toNat + ((sSending 100 64).req 1).inflight.toNat ≤ ((sSending 100 64).req 1).len.toNat ∧
    ((sSending 100 64).req 1).xfrd + ((sSending 100 64).req 1).inflight ≠ ((sSending 100 64).req 1).len ∧
    ((sSending 64 64).req 1).xfrd + ((sSending 64 64).req 1).inflight = ((sSending 64 64).req 1).len ∧
    ((sSending 64 64).ep 1).txnullpkt = false ∧
    (((sSending 64 64).modEp 1 fun e => { e with txnullpkt := true }).ep 1).txnullpkt = true := by decide

/-- `s` with request 2 queued behind request 1 on endpoint `i`. -/
def behind (s : State) (i : EpIx) : State :=
  (s.modEp i fun e => { e with queue := [1, 2] }).modReq 2 fun q => { q with owner := .engine }
theorem witness_TxDoneSendsTheNextPacket_next_of_the_queue :
    ((behind (sSending 64 64) 1).ep 1).state = .sending ∧ (behind (sSending 64 64) 1).hasDma 1 = false ∧
    ((behind (sSending 64 64) 1).ep 1).queue = 1 :: [2] ∧ (behind (sSending 64 64) 1).hasReq 1 = true ∧
    (behind (sSending 64 64) 1).isIn 1 = true ∧
    ((behind (sSending 64 64) 1).ep 1).txnullpkt = false ∧
    ((behind (sSending 64 64) 1).req 1).xfrd + ((behind (sSending 64 64) 1).req 1).inflight =
      ((behind (sSending 64 64) 1).req 1).len := by decide
/-- ep3 sends the zero-length packet of a zero-length write by DMA. -/
def sDmaZlp : State := after (exec (.submit 3 1) (sDma.modReq 1 fun q => { q with len := 0 }))
theorem witness_TxDoneSendsTheNextPacket_dma :
    (sDmaZlp.ep 3).state = .sending ∧ sDmaZlp.hasDma 3 = true ∧ (sDmaZlp.ep 3).queue = 1 :: [] ∧ sDmaZlp.hasReq 1 = true ∧
    (sDmaZlp.req 1).len = 0 ∧ (sSlice.ep 3).state = .sending ∧ (sSlice.ep 3).queue = 1 :: [] ∧ (sSlice.req 1).len ≠ 0 ∧
    ((behind sDmaZlp 3).ep 3).queue = 1 :: [2] := by decide
theorem witness_TxDoneSendsTheNextPacket_status_in :
    let s := after (exec (.setupSynchFrame ⟨true, 2, 0, 1, 2⟩) sCfg)
    (s.ep 0).state = .ep0StatusIn ∧ (s.ep 0).queue = [] ∧ ((s.enqueue 0 1).ep 0).state = .ep0StatusIn ∧
    ((s.enqueue 0 1).ep 0).queue ≠ [] := by decide

/-- ep2 is receiving request 1 of length `n`, and a packet of `k` bytes has come. -/
def sReceiving (n : Len) (k : Nat) : State :=
  after (exec (.busRxpkt 2 (List.replicate k 0xAB)) (queuedOn 2 .receiving { reqA with len := n }))
theorem witness_RxReadyStoresThePacket :
    ((sReceiving 100 64).ep 2).state = .receiving ∧ ((sReceiving 100 64).ep 2).queue = 1 :: [] ∧
    (sReceiving 100 64).hasReq 1 = true ∧ ((sReceiving 100 64).req 1).xfrd.toNat ≤ ((sReceiving 100 64).req 1).len.toNat ∧
    ¬(((sReceiving 100 64).req 1).xfrd + 64 = ((sReceiving 100 64).req 1).len ∨
      ((sReceiving 100 64).ep 2).sta.bytecnt < ((sReceiving 100 64).ep 2).mps) ∧
    ((sReceiving 64 64).req 1).xfrd + 64 = ((sReceiving 64 64).req 1).len ∧
    ((sReceiving 100 63).ep 2).sta.bytecnt < ((sReceiving 100 63).ep 2).mps ∧
    Memory.wf (sReceiving 100 64).mem = true ∧ (64#16).toNat ≤ ((sReceiving 100 64).ep 2).fifo.rx.length := by decide
theorem witness_RxReadyStoresThePacket_next_of_the_queue :
    ((behind (sReceiving 64 64) 2).ep 2).state = .receiving ∧ ((behind (sReceiving 64 64) 2).ep 2).queue = 1 :: [2] ∧
    (behind (sReceiving 64 64) 2).hasReq 1 = true ∧ (behind (sReceiving 64 64) 2).hasDma 2 = false ∧
    (behind (sReceiving 64 64) 2).isIn 2 = false ∧
    ((behind (sReceiving 64 64) 2).req 1).xfrd + 64 = ((behind (sReceiving 64 64) 2).req 1).len := by decide
theorem witness_RxReadyWithoutAReadHoldsOrDiscards :
    (sCfg.ep 0).state ≠ .receiving ∧ ¬((0 : EpIx) = 0 ∧ (sCfg.ep 0).state = .ep0DataOut) ∧
    (sCfg.ep 3).state = .disabled ∧ (sCfg.ep 2).state ≠ .receiving ∧ (sCfg.ep 2).state ≠ .disabled ∧
    sCfg.validEp 2 = true := by decide

/-- EP0 awaits the eight bytes of a class request, and `k` of them have come in one packet; `m` is EP0's packet size. -/
def sCollect (m : Len) (k : Nat) : State :=
  after (exec (.busRxpkt 0 (List.replicate k 0xAB))
    ((after (exec (.setupNonstandardClass 9 ⟨false, 1, 0, 0, 8⟩) sCfg)).modEp 0 fun e => { e with mps := m }))
theorem witness_Ep0CollectsOutData :
    ((sCollect 4 4).ep 0).state = .ep0DataOut ∧ (4#16).toNat ≤ ((sCollect 4 4).ep 0).fifo.rx.length ∧
    ¬((sCollect 4 4).dev.scratchCount + 4 = (sCollect 4 4).dev.ctrl.length ∨
      ((sCollect 4 4).ep 0).sta.bytecnt < ((sCollect 4 4).ep 0).mps) ∧
    ((sCollect 8 8).ep 0).state = .ep0DataOut ∧ (sCollect 8 8).dev.scratchCount + 8 = (sCollect 8 8).dev.ctrl.length ∧
    ((sCollect 4 3).ep 0).sta.bytecnt < ((sCollect 4 3).ep 0).mps ∧ (sCollect 8 8).dev.ctrl.rtype ≠ 0 ∧
    (sCollect 8 8).dev.driver ≠ nullRef := by decide

/-- EP0 has collected the `k` bytes of data of an OUT request `i`, which have come in one packet. -/
def sOutData (i : Instr) (k : Nat) : State := after (exec (.busRxpkt 0 (List.replicate k 0xAB)) (after (exec i sCfg)))
theorem witness_Ep0CollectsOutData_standard :
    let desc := sOutData (.setupSetDescriptor ⟨false, 0, 0x100, 0, 18⟩) 18
    let status := sOutData (.setupGetStatus ⟨false, 0, 0, 0, 2⟩) 2
    let synch := sOutData (.setupSynchFrame ⟨false, 2, 0, 1, 2⟩) 2
    (desc.dev.ctrl.rtype = 0 ∧ desc.dev.ctrl.dirIn = false ∧ desc.dev.ctrl.length = 18 ∧ desc.dev.ctrl.recip = 0 ∧
      desc.dev.ctrl.request = 0x07 ∧ desc.dev.driver ≠ nullRef ∧ (desc.ep 0).state = .ep0DataOut ∧
      desc.dev.scratchCount + 18 = desc.dev.ctrl.length ∧ ({ desc with dev := { desc.dev with driver := nullRef } } : State).dev.driver = nullRef) ∧
    (status.dev.ctrl.rtype = 0 ∧ status.dev.ctrl.request = 0x00 ∧ (status.ep 0).state = .ep0DataOut ∧
      status.dev.scratchCount + 2 = status.dev.ctrl.length) ∧
    (synch.dev.ctrl.rtype = 0 ∧ synch.dev.ctrl.request = 0x0C ∧ (synch.ep 0).state = .ep0DataOut ∧
      synch.dev.scratchCount + 2 = synch.dev.ctrl.length) ∧
    ((desc.enqueue 0 1).ep 0).queue ≠ [] ∧ (desc.ep 0).queue = [] := by decide
/-- R233, R250: SET_DESCRIPTOR goes to the class driver with its data. -/
theorem test_set_descriptor_forwards_its_data :
    ((sOutData (.setupSetDescriptor ⟨false, 0, 0x100, 0, 2⟩) 2).rxReady 0).cbList =
      [.onSetup 0x0002000001000700 (some [0xAB, 0xAB])] := by decide
/-- R130, R174: a write queued in EP0's OUT data stage starts when that stage leaves EP0 `Idle`. -/
theorem test_write_queued_in_out_data_starts :
    let s := after (exec (.submit 0 1) (sOutData (.setupNonstandardClass 9 ⟨false, 1, 0, 0, 8⟩) 8))
    (s.ep 0).state = .ep0DataOut ∧ ((s.rxReady 0).ep 0).state = .sending ∧
      ((s.rxReady 0).ep 0).fifo.tx = [List.replicate 8 0] := by decide

/-- ep3's DMA slice of request 1, of `n` bytes at a capacity of 4, has reported `f`. -/
def sReported (n : Len) (f : State → Host.Outcome State Fault Refusal) : State :=
  after (f (after (exec (.submit 3 1)
    ({ sDma with cfg := { sDma.cfg with dmaFifoCap := 4 } }.modReq 1 fun q => { q with len := n }))))
theorem witness_DmaCompletionCountsTheSlice :
    let a := sReported 8 (exec (.busDmaEob 3 0))
    let b := sReported 4 (exec (.busDmaEoc 3))
    let c := sReported 8 (exec (.busDmaErr 3))
    let d := sReported 8 (exec (.busDmaEoc 3))
    (a.moving 3 = true ∧ (a.ep 3).queue = [1] ∧ a.hasReq 1 = true ∧ (a.ep 3).chan.eob = true ∧
      (a.ep 3).chan.eoc = false ∧ (a.ep 3).chan.err = false ∧ (a.ep 3).chan.remcount ≤ (a.req 1).inflight ∧
      (a.req 1).xfrd.toNat + (a.req 1).inflight.toNat ≤ (a.req 1).len.toNat ∧ (a.req 1).inflight ≠ (a.req 1).len) ∧
    ((b.ep 3).chan.eoc = true ∧ (b.ep 3).chan.eob = false ∧ (b.ep 3).chan.err = false ∧ b.moving 3 = true ∧
      (b.req 1).xfrd + (b.req 1).inflight = (b.req 1).len) ∧
    ((c.ep 3).chan.err = true ∧ c.moving 3 = true ∧ (c.ep 3).queue = [1]) ∧
    (d.moving 3 = true ∧ (d.ep 3).chan.eoc = true ∧ (d.ep 3).chan.err = false ∧
      (d.req 1).xfrd + (d.req 1).inflight ≠ (d.req 1).len ∧ d.cfg.eocPolicy = .wait) ∧
    ({ d with cfg := { d.cfg with eocPolicy := .completeOk } } : State).cfg.eocPolicy = .completeOk := by decide
theorem witness_DmaCompletionCountsTheSlice_next_of_the_queue :
    let b := behind (sReported 4 (exec (.busDmaEoc 3))) 3
    b.moving 3 = true ∧ (b.ep 3).queue = 1 :: [2] ∧ b.hasReq 1 = true ∧ (b.ep 3).chan.eoc = true ∧
    (b.ep 3).chan.eob = false ∧ (b.ep 3).chan.err = false ∧ (b.req 1).xfrd + (b.req 1).inflight = (b.req 1).len := by decide
theorem witness_LateStatusIsIgnoredAndStallSentEndsATransfer :
    (sCfg.ep 1).state = .idle ∧ sCfg.moving 1 = false ∧ (sHalted.ep 1).state = .stalled ∧ (sCfg.ep 1).state ≠ .stalled ∧
    sSlice.moving 3 = true ∧ (sSlice.ep 3).queue = [1] ∧ sSlice.hasReq 1 = true ∧
    (behind sSlice 3).moving 3 = true ∧ ((behind sSlice 3).ep 3).queue = 1 :: [2] := by decide

/-! Properties of every step. -/

/-- ep1 is sending request 1; its TX-done has come and the dispatcher stands before it. -/
def sRunning : State :=
  { after (exec (.busTxdone 1) (sSending 100 64)) with stack := [.dispatch [.ep 1]] }
theorem witness_MemoryStaysCanonical : Memory.wf sRunning.mem = true ∧ ∃ t, step sRunning = .next t :=
  ⟨by decide, _, rfl⟩
theorem witness_ParametersAndPoolNeverChange : ∃ t, step sRunning = .next t := ⟨_, rfl⟩
theorem witness_EndpointFlagsFollowTheState :
    (1 ≤ sRunning.cfg.numEp ∧ ∀ i : EpIx, (sRunning.ep i).stalled = decide ((sRunning.ep i).state = .stalled) ∧
      ((sRunning.ep i).halted = true → (sRunning.ep i).stalled = true) ∧
      (i ≠ 0 → (sRunning.ep i).state ≠ .ep0DataOut ∧ (sRunning.ep i).state ≠ .ep0StatusIn ∧
        (sRunning.ep i).state ≠ .ep0Address) ∧
      (sRunning.ep i).fifo.fill = [] ∧ ((sRunning.ep i).ctl.txpktrdy = true → (sRunning.ep i).fifo.tx ≠ [])) := by decide
theorem witness_EndpointFlagsFollowTheState_met : sRunning.endpointsConsistent ∧ ∃ t, step sRunning = .next t :=
  ⟨witness_EndpointFlagsFollowTheState, _, rfl⟩
theorem queuesConsistent_sRunning :
    (1 ≤ sRunning.cfg.numEp ∧ ∀ i : EpIx,
      ((sRunning.ep i).state = .sending ∨ (sRunning.ep i).state = .receiving → (sRunning.ep i).queue ≠ []) ∧
      ((sRunning.ep i).state = .idle → (sRunning.ep i).queue = [])) := by decide
theorem witness_QueuesFollowTheState : sRunning.queuesConsistent ∧ ∃ t, step sRunning = .next t :=
  ⟨queuesConsistent_sRunning, _, rfl⟩
theorem mirrored_sRunning :
    sRunning.dev.rxpending = sRunning.epList.any (fun k => (sRunning.ep k).rxpend) ∧
    sRunning.devAddr.faddr = sRunning.dev.addr ∧ sRunning.devAddr.faddrEn = decide (sRunning.dev.addr ≠ 0) ∧
    sRunning.devCtl.pullup = sRunning.dev.pullup ∧ sRunning.devCtl.clkgate = sRunning.dev.clkGated ∧
    sRunning.intEnable = IntEnable.reset sRunning.cfg ∧ sRunning.dev.rwake = false := by decide
theorem witness_MirrorsStayEqual :
    1 ≤ sRunning.cfg.numEp ∧ sRunning.mirrored ∧ ∃ t, step sRunning = .next t :=
  ⟨by decide, mirrored_sRunning, _, rfl⟩

theorem reqs_sRunning : sRunning.reqs =
    [(1, { reqA with len := 100, inflight := 64, started := true, owner := .engine }), (2, { reqA with buf := 0x200 })] := by
  decide
theorem req_sRunning (h : Ref) : sRunning.req h =
    if h = 1 then { reqA with len := 100, inflight := 64, started := true, owner := .engine }
    else if h = 2 then { reqA with buf := 0x200 } else Request.fresh := by
  unfold State.req
  rw [reqs_sRunning]
  by_cases h1 : h = 1#32
  · subst h1; rfl
  by_cases h2 : h = 2#32
  · subst h2; rfl
  have e1 : (h == 1#32) = false := by simpa using h1
  have e2 : (h == 2#32) = false := by simpa using h2
  simp only [List.lookup, OfNat.ofNat]
  simp [e1, e2, h1, h2]
theorem queue_sRunning (i : EpIx) : (sRunning.ep i).queue = if i = 1 then [1] else [] := by revert i; decide
theorem ownership_sRunning : sRunning.ownership where
  distinct := by rw [reqs_sRunning]; decide
  issued := by
    intro h hh
    rw [State.hasReq, reqs_sRunning] at hh
    by_cases h1 : h = 1#32
    · subst h1; decide
    by_cases h2 : h = 2#32
    · subst h2; decide
    have e1 : (h == 1#32) = false := by simpa using h1
    have e2 : (h == 2#32) = false := by simpa using h2
    simp [List.lookup, e1, e2] at hh
  queued := by
    intro i h hq
    rw [queue_sRunning] at hq
    split at hq
    · rw [List.mem_singleton.mp hq]; decide
    · cases hq
  once := by intro i; rw [queue_sRunning]; split <;> simp
  apart := by
    intro i j h hij hi hj
    rw [queue_sRunning] at hi hj
    split at hi <;> split at hj <;> simp_all
  onQueue := by
    intro h ho
    rw [req_sRunning] at ho
    by_cases h1 : h = 1#32
    · exact ⟨1, by rw [queue_sRunning]; simp [h1]⟩
    by_cases h2 : h = 2#32
    · simp [h2, reqA, Request.fresh] at ho
    · simp [h1, h2, Request.fresh] at ho
theorem witness_OwnershipIsKept : sRunning.ownership ∧ ∃ t, step sRunning = .next t := ⟨ownership_sRunning, _, rfl⟩
theorem accounted_sRunning : sRunning.accounted where
  hasEp0 := by decide
  capacity := by decide
  owned := ownership_sRunning
  counts := by
    intro h ho
    rw [req_sRunning] at ho ⊢
    by_cases h1 : h = 1#32
    · subst h1; decide
    by_cases h2 : h = 2#32
    · simp [h2, reqA, Request.fresh] at ho
    · simp [h1, h2, Request.fresh] at ho
  flight := by
    intro i h hq _
    rw [queue_sRunning] at hq
    split at hq
    · rename_i hi
      subst hi
      rw [List.mem_singleton.mp hq]
      decide
    · cases hq
  reading := fun i _ hr => absurd hr ((by decide : ∀ i, (sRunning.ep i).state ≠ .receiving) i)
  slice := by intro i hr; revert i; decide
  dmaIe := by decide
  rxIe := by decide
theorem witness_CountsNeverExceedTheLength : sRunning.accounted ∧ ∃ t, step sRunning = .next t :=
  ⟨accounted_sRunning, _, rfl⟩
theorem witness_OnlyRequestBuffersAreWritten :
    sRunning.accounted ∧ (∃ t, step sRunning = .next t) ∧ (∀ a bytes rest, sRunning.input ≠ .poke a bytes :: rest) ∧
    (∃ rest below, sRunning.stack = .dispatch rest :: below) :=
  ⟨accounted_sRunning, ⟨_, rfl⟩, nofun, _, _, rfl⟩
theorem endpointsConsistent_sAddress :
    (1 ≤ sAddress.cfg.numEp ∧ ∀ i : EpIx, (sAddress.ep i).stalled = decide ((sAddress.ep i).state = .stalled) ∧
      ((sAddress.ep i).halted = true → (sAddress.ep i).stalled = true) ∧
      (i ≠ 0 → (sAddress.ep i).state ≠ .ep0DataOut ∧ (sAddress.ep i).state ≠ .ep0StatusIn ∧
        (sAddress.ep i).state ≠ .ep0Address) ∧
      (sAddress.ep i).fifo.fill = [] ∧ ((sAddress.ep i).ctl.txpktrdy = true → (sAddress.ep i).fifo.tx ≠ [])) := by decide
theorem witness_AddressChangesOnlyWhenApplied :
    sAddress.endpointsConsistent ∧ (∃ t, step sAddress = .next t) ∧ (after (step sAddress)).devAddr ≠ sAddress.devAddr :=
  ⟨endpointsConsistent_sAddress, ⟨_, rfl⟩, by decide⟩
/-- A bus reset is pending and the dispatcher stands before it. -/
def sBusReset : State :=
  { sCfg with stack := [.dispatch [.busReset]], intPending := { sCfg.intPending with busreset := true } }
theorem endpointsConsistent_sBusReset :
    (1 ≤ sBusReset.cfg.numEp ∧ ∀ i : EpIx, (sBusReset.ep i).stalled = decide ((sBusReset.ep i).state = .stalled) ∧
      ((sBusReset.ep i).halted = true → (sBusReset.ep i).stalled = true) ∧
      (i ≠ 0 → (sBusReset.ep i).state ≠ .ep0DataOut ∧ (sBusReset.ep i).state ≠ .ep0StatusIn ∧
        (sBusReset.ep i).state ≠ .ep0Address) ∧
      (sBusReset.ep i).fifo.fill = [] ∧ ((sBusReset.ep i).ctl.txpktrdy = true → (sBusReset.ep i).fifo.tx ≠ [])) := by decide
theorem step_sBusReset : ∃ t, step sBusReset = .next t := ⟨_, rfl⟩
theorem devAddr_sBusReset : (after (step sBusReset)).devAddr ≠ sBusReset.devAddr := by decide
theorem witness_AddressChangesOnlyWhenApplied_bus_reset :
    sBusReset.endpointsConsistent ∧ (∃ t, step sBusReset = .next t) ∧ (after (step sBusReset)).devAddr ≠ sBusReset.devAddr :=
  ⟨endpointsConsistent_sBusReset, step_sBusReset, devAddr_sBusReset⟩
theorem witness_ConfiguredOnlyByAcceptedRequest :
    (∃ t, step (sOnSetup 0x0000000000010900 .ok) = .next t) ∧
    (after (step (sOnSetup 0x0000000000010900 .ok))).dev.state = .configured ∧
    (sOnSetup 0x0000000000010900 .ok).dev.state ≠ .attached ∧ (sOnSetup 0x0000000000010900 .ok).dev.prevstate ≠ .attached :=
  ⟨⟨_, rfl⟩, by decide⟩
/-- `on_setup` accepts SET_CONFIGURATION(1) at `Address`. -/
def sAccept : State :=
  let s := sOnSetup 0x0000000000010900 .ok
  { s with dev := { s.dev with state := .address } }
theorem witness_ConfiguredOnlyByAcceptedRequest_address :
    (∃ t, step sAccept = .next t) ∧ (after (step sAccept)).dev.state = .configured ∧ sAccept.dev.state = .address ∧
    sAccept.dev.ctrl.rtype = 0 ∧ sAccept.dev.ctrl.request = 0x09 ∧ sAccept.dev.ctrl.value.extractLsb' 0 8 ≠ 0 ∧
    sAccept.stack = .active (.onSetup 0x0000000000010900 none) :: [] ∧ sAccept.input = .ret .ok :: [] :=
  ⟨⟨_, rfl⟩, by decide⟩
/-- `sCfg`, suspended while `Configured`. -/
def sAsleep : State := { sCfg with dev := { sCfg.dev with state := .suspended, prevstate := .configured } }
/-- A resume is pending and the dispatcher stands before it. -/
def sResume : State :=
  { sAsleep with stack := [.dispatch [.resume]], intPending := { sCfg.intPending with resume := true } }
theorem witness_ConfiguredOnlyByAcceptedRequest_resume :
    (∃ t, step sResume = .next t) ∧ (after (step sResume)).dev.state = .configured ∧ sResume.dev.state = .suspended ∧
    sResume.stack = .dispatch [.resume] :: [] ∧ [Source.resume].find? sResume.stillPending = some .resume :=
  ⟨⟨_, rfl⟩, by decide⟩
/-- The class driver issues WAKEUP to a suspended device. -/
def sWakeup : State := { sAsleep with input := [.cmd [0x0B, 0, 0, 0, 0, 0, 0, 0]] }
theorem witness_ConfiguredOnlyByAcceptedRequest_wakeup :
    (∃ t, step sWakeup = .next t) ∧ (after (step sWakeup)).dev.state = .configured ∧ sWakeup.dev.state = .suspended ∧
    sWakeup.stack = [] ∧ sWakeup.input = .cmd [0x0B, 0, 0, 0, 0, 0, 0, 0] :: [] ∧
    decode .command [0x0B, 0, 0, 0, 0, 0, 0, 0] = .ok (.wakeup, []) :=
  ⟨⟨_, rfl⟩, by decide⟩

end Sys2Proof.Tests
end

section
/-! SUPPORT. Starting a fresh write on an endpoint without DMA (R130, R176, R180 to R183): `FirstPacket` says what
handing over the first packet of the head request does to the state, and `submit` of a write is that start (O13). -/

namespace Sys2Proof.Machine

variable {s t : State} {i : EpIx} {h : Ref}

/-! ### The first packet of a write -/

/-- An endpoint after the first packet of write `q` has been carved from memory `m` and handed over (R180 to R183). -/
def Endpoint.afterFirstPacket (e : Endpoint) (m : Memory) (q : Request) : Endpoint :=
  let n := lenMin e.mps q.len
  { e with
    state := .sending
    txnullpkt := decide (n = q.len) && q.nullpkt && decide (n = e.mps)
    bank := (e.bank + 1) % e.banks
    ctl := { e.ctl with txpktrdy := true }
    fifo := { e.fifo with fill := [], tx := e.fifo.tx ++ [e.fifo.fill ++ readBytes m q.buf n.toNat] } }

/-- `t` is `s` with the first packet of request `h` handed over on endpoint `i`, and nothing else changed. -/
structure FirstPacket (i : EpIx) (h : Ref) (s t : State) : Prop where
  rest : t = { s with eps := t.eps, reqs := t.reqs }
  ep : t.ep i = (s.ep i).afterFirstPacket s.mem (s.req h)
  other : ∀ j, j ≠ i → t.ep j = s.ep j
  req : t.req h = { s.req h with inflight := lenMin (s.ep i).mps (s.req h).len, started := true }
  requests : ∀ k, k ≠ h → t.req k = s.req k

/-- The engine has moved nothing of request `q` yet. -/
structure Request.Unmoved (q : Request) : Prop where
  started : q.started = false
  xfrd : q.xfrd = 0
  inflight : q.inflight = 0

/-- The first packet overwrites `txnullpkt`, whatever it was. -/
theorem FirstPacket.of_modEp_txnullpkt {b : Bool}
    (F : FirstPacket i h (s.modEp i fun e => { e with txnullpkt := b }) t) : FirstPacket i h s t where
  rest := F.rest
  ep := by rw [F.ep, State.modEp_ep_same]; rfl
  other := fun j hj => by rw [F.other j hj, State.modEp_ep_other _ _ _ _ hj]
  req := by rw [F.req, State.modEp_ep_same]; rfl
  requests := F.requests

theorem Request.Unmoved.count {q : Request} (hq : q.Unmoved) :
    { q with xfrd := q.xfrd + q.inflight, inflight := 0 } = q := by
  obtain ⟨-, hx, hf⟩ := hq
  cases q
  subst hx hf
  rfl

/-- Counting what was sent changes no record while nothing has been moved. -/
theorem State.countSent_req_of_unmoved (hq : (s.req h).Unmoved) (k : Ref) : (s.countSent h).req k = s.req k := by
  unfold State.countSent
  rw [State.modReq_req]
  split
  · next hk =>
    obtain ⟨rfl, _⟩ := hk
    exact hq.count
  · rfl

theorem FirstPacket.of_countSent (hq : (s.req h).Unmoved) (F : FirstPacket i h (s.countSent h) t) :
    FirstPacket i h s t where
  rest := F.rest
  ep := by rw [F.ep, State.countSent_req_of_unmoved hq]; rfl
  other := F.other
  req := by rw [F.req, State.countSent_req_of_unmoved hq]; rfl
  requests := fun k hk => by rw [F.requests k hk, State.countSent_req_of_unmoved hq]

/-! ### Carving it -/

theorem State.sendPacket_firstPacket (hr : s.hasReq h = true) (hx : (s.req h).xfrd = 0) :
    FirstPacket i h s (s.sendPacket i h) where
  rest := rfl
  ep := by
    have whole : ((s.req h).len - lenMin (s.ep i).mps (s.req h).len = 0#16) ↔
        lenMin (s.ep i).mps (s.req h).len = (s.req h).len := by
      constructor <;> intro e <;> bv_omega
    unfold State.sendPacket Endpoint.afterFirstPacket
    simp [hx, whole, bufAt, State.memRead, Fifo.hand]
  other := fun j hj => by unfold State.sendPacket; simp [hj]
  req := by unfold State.sendPacket; simp [State.modReq_req, hr, hx]
  requests := fun k hk => by unfold State.sendPacket; simp [State.modReq_req, hk]

/-- The first turn of `WriteProcess` sends the first packet: the write has bytes to send, or owes its zero-length
packet (R181, R183). -/
theorem writeLoop_firstPacket (k : Nat) (hp : s.peek i = some h) (hr : s.hasReq h = true) (hq : (s.req h).Unmoved) :
    FirstPacket i h s (writeLoop i (k + 1) s) := by
  have hc : (s.countSent h).req h = s.req h := State.countSent_req_of_unmoved hq h
  have hr' : (s.countSent h).hasReq h = true := by unfold State.countSent; simpa using hr
  have hx : ((s.countSent h).req h).xfrd = 0 := by rw [hc, hq.xfrd]
  refine FirstPacket.of_countSent hq ?_
  unfold writeLoop
  rw [hp]
  dsimp only
  by_cases hl : (s.req h).len = 0#16
  · have owes : (s.countSent h).oweZlp i h = (s.countSent h).modEp i fun e => { e with txnullpkt := true } := by
      unfold State.oweZlp; simp [hc, hq.started, hl]
    rw [owes, if_pos (Or.inr (by simp))]
    exact FirstPacket.of_modEp_txnullpkt (State.sendPacket_firstPacket (by simpa using hr') (by simpa using hx))
  · have owes_none : (s.countSent h).oweZlp i h = s.countSent h := by unfold State.oweZlp; simp [hc, hl]
    rw [owes_none, if_pos (Or.inl (by rw [hc, hq.xfrd]; simpa using hl))]
    exact State.sendPacket_firstPacket hr' hx

/-- Starting a queue whose head is a write not moved yet sends its first packet (R176). -/
theorem State.startTransfer_firstPacket {more : List Ref} (hd : s.hasDma i = false) (hi : s.isIn i = true)
    (hl : (s.ep i).queue = h :: more) (hr : s.hasReq h = true) (hq : (s.req h).Unmoved) :
    FirstPacket i h s (s.startTransfer i) := by
  have hp : s.peek i = some h := by unfold State.peek; rw [hl]; rfl
  unfold State.startTransfer
  rw [hl, hd, hi]
  exact writeLoop_firstPacket _ hp hr hq

/-! ### SUBMIT -/

/-- An accepted `submit` on an `Idle` endpoint queues the request and starts the queue (R130). -/
theorem exec_submit_of_idle (ha : s.accepts i h) (hs : (s.ep i).state = .idle) :
    exec (.submit i h) s = .next ((((s.modReq h submitted).enqueue i h).startTransfer i).answer .ok) := by
  have hb : ¬(h = nullRef ∨ s.hasReq h = false ∨ (s.req h).callback = nullRef ∨
      ((s.req h).buf = 0 ∧ (s.req h).len ≠ 0)) := by
    rintro (e | e | e | ⟨e, e'⟩)
    · exact ha.notNull e
    · exact Bool.noConfusion (e.symm.trans ha.exists_)
    · exact ha.callback e
    · exact e' (ha.buffer e)
  have hn : ¬(s.dev.driver = nullRef ∨ (s.ep i).state = .disabled) := not_or.mpr ⟨ha.bound, ha.enabled⟩
  show execSubmit i h s = _
  unfold execSubmit
  dsimp only
  rw [ha.valid, ha.reserved, if_neg (by decide), if_neg hb, ha.owner, if_neg (by decide), if_neg hn, if_pos hs]
  rfl

/-- Settles O13: both clauses are `startTransfer_firstPacket`, the first from the state in which the request has been
queued. -/
theorem submitStartsAWrite : Obligations.SubmitStartsAWrite := by
  intro i h s hs hd hi
  refine ⟨fun ha he => ?_, fun more hl hr hst hx hf => ?_⟩
  · have hreq : ((s.modReq h submitted).enqueue i h).req h = submitted (s.req h) :=
      State.modReq_req_same s h submitted ha.exists_
    have hep : ((s.modReq h submitted).enqueue i h).ep i = { s.ep i with queue := [h] } := by simp [he]
    have hin : ((s.modReq h submitted).enqueue i h).isIn i = true := by simpa [State.isIn] using hi
    have hex : (s.modReq h submitted).hasReq h = true := (State.modReq_hasReq s h h submitted).trans ha.exists_
    have fresh : (((s.modReq h submitted).enqueue i h).req h).Unmoved := by rw [hreq]; exact ⟨rfl, rfl, rfl⟩
    have F : FirstPacket i h ((s.modReq h submitted).enqueue i h) _ :=
      State.startTransfer_firstPacket hd hin (by rw [hep]) hex fresh
    refine ⟨_, exec_submit_of_idle ha hs, ?_, ?_, fun j hj => ?_, ?_, fun k hk => ?_⟩
    · exact congrArg (State.answer · .ok) F.rest
    · exact F.ep.trans (by rw [hreq, hep]; rfl)
    · exact (F.other j hj).trans (by simp [hj])
    · exact F.req.trans (by rw [hreq, hep]; rfl)
    · exact (F.requests k hk).trans (State.modReq_req_other s h k submitted hk)
  · have F := State.startTransfer_firstPacket hd hi hl hr ⟨hst, hx, hf⟩
    refine ⟨F.rest, ?_, F.other, F.req, F.requests⟩
    rw [F.ep, ← hl]
    rfl

end Sys2Proof.Machine
end

section
/-! SUPPORT. No step writes the implementation parameters (R8) or takes or gives back a DMA descriptor (R209): every
procedure keeps both, those on one endpoint by their `EpFrame`, and so every instruction, handler and agent does
(O51). -/

namespace Sys2Proof.Machine

/-! ### What is fixed -/

/-- What no step writes: the parameters and the owners of the descriptors. -/
def State.fixed (s : State) : Params × List (Option EpIx) := (s.cfg, s.descOwner)

variable {s t : State}

theorem EpFrame.fixed {i : EpIx} {hs : List Ref} (F : EpFrame i hs s t) : t.fixed = s.fixed :=
  congrArg₂ Prod.mk F.cfg F.descOwner

/-- The frame of an operation on endpoint `i` that has not begun. -/
theorem EpFrame.start (i : EpIx) (s : State) : EpFrame i (s.ep i).queue s s := .refl fun _ h => h

@[simp] theorem State.modEp_fixed (s : State) (i : EpIx) (f : Endpoint → Endpoint) :
    (s.modEp i f).fixed = s.fixed := rfl
@[simp] theorem State.modDev_fixed (s : State) (f : Device → Device) : (s.modDev f).fixed = s.fixed := rfl
@[simp] theorem State.setDmaPending_fixed (s : State) (i : EpIx) (b : Bool) :
    (s.setDmaPending i b).fixed = s.fixed := rfl
@[simp] theorem State.release_fixed (s : State) : s.release.fixed = s.fixed := rfl

theorem forEps_fixed {f : EpIx → State → State} (hf : ∀ i s, (f i s).fixed = s.fixed) (is : List EpIx) (s : State) :
    (s.forEps is f).fixed = s.fixed := by
  induction is generalizing s with
  | nil => rfl
  | cons i rest ih => exact (ih (f i s)).trans (hf i s)

/-- Every next state of the outcome `o` has what is fixed in `s`. -/
def FixedNext (s : State) (o : Host.Outcome State Fault Refusal) : Prop := ∀ t, o = .next t → t.fixed = s.fixed

theorem FixedNext.next (h : t.fixed = s.fixed) : FixedNext s (.next t) := by
  intro u e
  cases e
  exact h

theorem FixedNext.answer (h : t.fixed = s.fixed) (r : Result) : FixedNext s (.next (t.answer r)) := .next h

theorem FixedNext.fault (f : Fault) : FixedNext s (.fault f) := by intro _ e; cases e
theorem FixedNext.refused (r : Refusal) : FixedNext s (.refused r) := by intro _ e; cases e

/-- An operation that fails a check only answers. -/
theorem FixedNext.guard {c : Prop} [Decidable c] {r : Result} {o : Host.Outcome State Fault Refusal}
    (H : FixedNext s o) : FixedNext s (if c then .next (s.answer r) else o) := by
  split
  · exact .answer rfl r
  · exact H

/-! ### Procedures on one endpoint -/

theorem startTransfer_fixed (i : EpIx) (s : State) : (s.startTransfer i).fixed = s.fixed :=
  (EpFrame.start i s).startTransfer.fixed
theorem unmaskEpIrq_fixed (i : EpIx) (s : State) : (s.unmaskEpIrq i).fixed = s.fixed :=
  (EpFrame.start i s).unmaskEpIrq.fixed
theorem disableEp_fixed (i : EpIx) (s : State) : (s.disableEp i).fixed = s.fixed := (EpFrame.start i s).disableEp.fixed
theorem stallEp_fixed (i : EpIx) (s : State) : (s.stallEp i).fixed = s.fixed := (EpFrame.start i s).stallEp.fixed
theorem resumeEp_fixed (i : EpIx) (s : State) : (s.resumeEp i).fixed = s.fixed := (EpFrame.start i s).resumeEp.fixed
theorem haltEp_fixed (i : EpIx) (s : State) : (s.haltEp i).fixed = s.fixed := (EpFrame.start i s).haltEp.fixed
theorem resetEp_fixed (i : EpIx) (s : State) : (s.resetEp i).fixed = s.fixed := (EpFrame.start i s).resetEp.fixed

/-! ### The device state machine -/

theorem notify_fixed (s : State) (c : Callback) : (s.notify c).fixed = s.fixed := by
  unfold State.notify
  split <;> rfl

theorem busReset_fixed (s : State) : s.busReset.fixed = s.fixed := by
  have afterReset : ∀ is v, (State.forEps v is fun i s => s.disableAfterReset i).fixed = v.fixed :=
    forEps_fixed fun _ _ => rfl
  have ep0 : ∀ v : State, v.defaultEp0.defaultDevice.fixed = v.fixed := fun v => (unmaskEpIrq_fixed 0 _).trans rfl
  unfold State.busReset
  dsimp only
  rw [ep0, afterReset, forEps_fixed resetEp_fixed, notify_fixed]
  rfl

theorem suspend_fixed (s : State) : s.suspend.fixed = s.fixed := by
  unfold State.suspend
  dsimp only
  split
  · rfl
  · exact (notify_fixed (State.modDev _ _) .onSuspend).trans rfl

theorem deviceResume_fixed (s : State) : s.deviceResume.fixed = s.fixed :=
  (notify_fixed (s.modDev fun d => { d with state := d.prevstate }) .onResume).trans rfl

theorem resume_fixed (s : State) : s.resume.fixed = s.fixed := by
  unfold State.resume
  dsimp only
  split
  · exact (deviceResume_fixed _).trans rfl
  · rfl

theorem pollRwake_fixed (s : State) : s.pollRwake.fixed = s.fixed := by
  unfold State.pollRwake
  split
  · split <;> rfl
  · rfl

theorem spinRwake_fixed (k : Nat) (s : State) : (spinRwake k s).fixed = s.fixed := by
  induction k generalizing s with
  | zero => rfl
  | succ k ih =>
    unfold spinRwake
    split
    · exact (ih _).trans (pollRwake_fixed s)
    · rfl

/-! ### The EP0 sequencer -/

theorem ep0Finish_fixed (s : State) (p : SetupPacket) (o : Ep0Outcome) : (s.ep0Finish p o).fixed = s.fixed := by
  cases o with
  | success resp => rfl
  | address => rfl
  | dispatched => rfl
  | stall => exact stallEp_fixed 0 s

theorem applyAddress_fixed (s : State) : s.applyAddress.fixed = s.fixed := by
  unfold State.applyAddress
  extract_lets p d s1 s2
  split
  · rfl
  · exact (startTransfer_fixed 0 s2).trans rfl

theorem configureDevice_fixed (s : State) : s.configureDevice.fixed = s.fixed := by
  unfold State.configureDevice
  split <;> rfl

theorem onSetupReturn_fixed (s : State) (r : Result) : (s.onSetupReturn r).fixed = s.fixed := by
  unfold State.onSetupReturn
  split
  · exact stallEp_fixed 0 s
  · split
    · exact configureDevice_fixed s
    · rfl

/-- A request's rule keeps what is fixed. -/
def FixedRule (rule : Option (List Byte) → State → State × Ep0Outcome) : Prop :=
  ∀ out s, (rule out s).1.fixed = s.fixed

theorem forward_fixed (out : Option (List Byte)) (s : State) : (s.forward out).1.fixed = s.fixed := by
  unfold State.forward
  split <;> rfl

/-- Forwarding after a check. -/
theorem forwardIf_fixed (c : Prop) [Decidable c] (o : Ep0Outcome) (out : Option (List Byte)) (s : State) :
    (if c then (s, o) else s.forward out).1.fixed = s.fixed := by
  split
  · rfl
  · exact forward_fixed out s

/-- A request that is forwarded if it passes its checks, and stalls otherwise. -/
theorem forwardOrStall_fixed (c : Prop) [Decidable c] (out : Option (List Byte)) (s : State) :
    (if c then s.forward out else (s, .stall)).1.fixed = s.fixed := by
  split
  · exact forward_fixed out s
  · rfl

theorem reqGetStatus_fixed : FixedRule reqGetStatus := by
  intro out s
  unfold reqGetStatus
  dsimp only
  split_ifs
  · rfl
  · rfl
  · split <;> rfl
  · rfl
  · rfl

theorem reqClearFeature_fixed : FixedRule reqClearFeature := by
  intro out s
  unfold reqClearFeature
  dsimp only
  split
  · split
    · rfl
    · exact resumeEp_fixed _ s
  · exact forwardIf_fixed _ _ out s

theorem reqSetFeature_fixed : FixedRule reqSetFeature := by
  intro out s
  unfold reqSetFeature
  dsimp only
  split
  · split
    · rfl
    · exact haltEp_fixed _ s
  · exact forwardIf_fixed _ _ out s

theorem reqSetAddress_fixed : FixedRule reqSetAddress := by
  intro out s
  unfold reqSetAddress
  dsimp only
  split <;> rfl

theorem reqGetDescriptor_fixed : FixedRule reqGetDescriptor := fun out s => forwardOrStall_fixed _ out s
theorem reqSetDescriptor_fixed : FixedRule reqSetDescriptor := fun out s => forwardOrStall_fixed _ out s
theorem reqGetConfiguration_fixed : FixedRule reqGetConfiguration := fun out s => forwardOrStall_fixed _ out s
theorem reqSetConfiguration_fixed : FixedRule reqSetConfiguration := fun out s => forwardOrStall_fixed _ out s
theorem reqGetInterface_fixed : FixedRule reqGetInterface := forward_fixed
theorem reqSetInterface_fixed : FixedRule reqSetInterface := forward_fixed
theorem reqSynchFrame_fixed : FixedRule reqSynchFrame := fun _ _ => rfl
theorem reqUnknownStandard_fixed : FixedRule reqUnknownStandard := fun _ _ => rfl
theorem reqNonstandard_fixed : FixedRule reqNonstandard := forward_fixed

theorem requestRule_fixed (p : SetupPacket) : FixedRule (requestRule p) := by
  unfold requestRule
  split
  · exact reqNonstandard_fixed
  · split
    · exact reqGetStatus_fixed
    · exact reqClearFeature_fixed
    · exact reqSetFeature_fixed
    · exact reqSetAddress_fixed
    · exact reqGetDescriptor_fixed
    · exact reqSetDescriptor_fixed
    · exact reqGetConfiguration_fixed
    · exact reqSetConfiguration_fixed
    · exact reqGetInterface_fixed
    · exact reqSetInterface_fixed
    · exact reqSynchFrame_fixed
    · exact reqUnknownStandard_fixed

theorem FixedRule.runRequest {rule : Option (List Byte) → State → State × Ep0Outcome} (hr : FixedRule rule)
    (out : Option (List Byte)) (s : State) : (s.runRequest rule out).fixed = s.fixed :=
  (ep0Finish_fixed _ _ _).trans (hr out s)

theorem ep0Dispatch_fixed (out : Option (List Byte)) (s : State) : (s.ep0Dispatch out).fixed = s.fixed :=
  (requestRule_fixed _).runRequest out s

theorem setupAccept_fixed {go : State → State} (hgo : ∀ s, (go s).fixed = s.fixed) (s : State) (p : SetupPacket) :
    (s.setupAccept p go).fixed = s.fixed := by
  unfold State.setupAccept
  extract_lets s1 s2 s3 s4 s5
  have drained : s2.fixed = s.fixed := ((EpFrame.start 0 s1).drain .ok).fixed
  clear_value s2
  have ready : s5.fixed = s.fixed := by
    unfold s5
    split <;> exact drained
  clear_value s5
  split
  · split
    · exact (stallEp_fixed 0 (s5.setEpState 0 .idle)).trans ready
    · exact (State.modEp_fixed s5 0 _).trans ready
  · exact (hgo (s5.setEpState 0 .idle)).trans ready

theorem setupReceived_fixed (s : State) : s.setupReceived.fixed = s.fixed := by
  unfold State.setupReceived
  dsimp only
  split
  · rfl
  · split
    · exact (stallEp_fixed 0 _).trans rfl
    · exact (setupAccept_fixed (ep0Dispatch_fixed none) _ _).trans rfl

theorem startEp0_fixed (s : State) : s.startEp0.fixed = s.fixed := by
  unfold State.startEp0
  split
  · exact startTransfer_fixed 0 s
  · rfl

theorem ep0DataOutPacket_fixed (s : State) : s.ep0DataOutPacket.fixed = s.fixed := by
  unfold State.ep0DataOutPacket
  dsimp only
  split
  · exact (startEp0_fixed _).trans ((ep0Dispatch_fixed _ _).trans rfl)
  · rfl

theorem FixedRule.receiveSetup {rule : Option (List Byte) → State → State × Ep0Outcome} (hr : FixedRule rule)
    (s : State) (p : SetupPacket) : FixedNext s (.next (s.receiveSetup p rule)) := by
  refine .next ?_
  unfold State.receiveSetup
  split
  · rfl
  · exact (setupAccept_fixed (hr.runRequest none) _ _).trans rfl

/-! ### The interrupt handlers -/

theorem txDone_fixed (i : EpIx) (s : State) : (s.txDone i).fixed = s.fixed := by
  have written : (s.writeProcess i).fixed = s.fixed := (EpFrame.start i s).writeProcess.fixed
  unfold State.txDone
  split
  · split
    · dsimp only
      split
      · rfl
      · split
        · exact (((EpFrame.start i s).modCtl _).completeAndStart .ok).fixed
        · rfl
    · exact written
  · exact written
  · exact applyAddress_fixed s
  all_goals rfl

theorem rxReady_fixed (i : EpIx) (s : State) : (s.rxReady i).fixed = s.fixed := by
  unfold State.rxReady
  split
  · exact (EpFrame.start i s).readPacket.fixed
  · split
    · split
      · exact ep0DataOutPacket_fixed s
      · rfl
    · split
      · rfl
      · exact (EpFrame.start i s).holdRx.fixed

theorem stallSent_fixed (i : EpIx) (s : State) : (s.stallSent i).fixed = s.fixed := (EpFrame.start i s).stallSent.fixed

theorem setupStatus_fixed (i : EpIx) (s : State) : (s.setupStatus i).fixed = s.fixed := by
  unfold State.setupStatus
  split
  · exact setupReceived_fixed s
  · rfl

/-- A handler that runs only if its bit of the sample is set (R309). -/
theorem ifBit_fixed (b : Bool) (h : t.fixed = s.fixed) : (if b then t else s).fixed = s.fixed := by
  split
  · exact h
  · rfl

theorem epInterrupt_fixed (i : EpIx) (s : State) : (s.epInterrupt i).fixed = s.fixed := by
  unfold State.epInterrupt
  extract_lets bits s1 s2 s3
  have tx : s1.fixed = s.fixed := ifBit_fixed _ (txDone_fixed i (s.ackTxdone i))
  have rx : s2.fixed = s1.fixed := ifBit_fixed _ (rxReady_fixed i s1)
  have stall : s3.fixed = s2.fixed := ifBit_fixed _ (stallSent_fixed i (s2.ackStallsent i))
  have setup := ifBit_fixed bits.setup (setupStatus_fixed i s3)
  exact setup.trans (stall.trans (rx.trans tx))

theorem handle_fixed (s : State) (b : Source) : (s.handle b).fixed = s.fixed := by
  cases b with
  | suspend => exact suspend_fixed s
  | sof => rfl
  | resume => exact resume_fixed s
  | busReset => exact busReset_fixed s
  | upResume => rfl
  | dma c => exact (EpFrame.start c s).dmaInterrupt.fixed
  | ep i => exact epInterrupt_fixed i s

theorem dispatchStep_fixed (s : State) (rest : List Source) (below : List Ctx) :
    (s.dispatchStep rest below).fixed = s.fixed := by
  unfold State.dispatchStep
  split
  · unfold State.resample
    split <;> rfl
  · exact (handle_fixed _ _).trans rfl

theorem enterDispatch_fixed (s : State) : s.enterDispatch.fixed = s.fixed := by
  unfold State.enterDispatch
  split <;> rfl

/-! ### The class driver's operations -/

theorem execConfigureEndpoint_fixed (i : EpIx) (d : EpDesc) (s : State) : FixedNext s (execConfigureEndpoint i d s) :=
  .guard <| .guard <| .guard <| .guard <| .answer ((EpFrame.start i s).programEp d).startTransfer.fixed _

theorem execDisableEndpoint_fixed (i : EpIx) (s : State) : FixedNext s (execDisableEndpoint i s) :=
  .guard <| .answer (disableEp_fixed i s) _

theorem execAllocateRequest_fixed (s : State) : FixedNext s (execAllocateRequest s) := by
  unfold execAllocateRequest
  dsimp only
  split <;> exact .next rfl

theorem execFreeRequest_fixed (i : EpIx) (h : Ref) (s : State) : FixedNext s (execFreeRequest i h s) := by
  refine .guard ?_
  split
  · exact .fault _
  · exact .next rfl

theorem execSubmit_fixed (i : EpIx) (h : Ref) (s : State) : FixedNext s (execSubmit i h s) := by
  refine .guard <| .guard <| .guard <| .guard <| .answer ?_ _
  split
  · exact (startTransfer_fixed i _).trans rfl
  · rfl

theorem execCancel_fixed (i : EpIx) (h : Ref) (s : State) : FixedNext s (execCancel i h s) := by
  have F := ((EpFrame.start i s).maskEpIrq.dmaStopIfBusy.cancelAll .shutdown).postCancel
  refine .guard <| .answer ?_ _
  split
  · exact F.unmaskEpIrq.fixed
  · exact F.fixed

theorem execStall_fixed (i : EpIx) (s : State) : FixedNext s (execStall i s) :=
  .guard <| .answer (stallEp_fixed i s) _

theorem execResumeStall_fixed (i : EpIx) (s : State) : FixedNext s (execResumeStall i s) :=
  .guard <| .answer (resumeEp_fixed i s) _

theorem execAllocateEndpoint_fixed (n : EpIx) (dirIn : Bool) (ty : EpType) (s : State) :
    FixedNext s (execAllocateEndpoint n dirIn ty s) := by
  unfold execAllocateEndpoint
  split
  · split <;> exact .next rfl
  · split <;> exact .next rfl

theorem execFreeEndpoint_fixed (i : EpIx) (s : State) : FixedNext s (execFreeEndpoint i s) :=
  .guard <| .answer ((State.modEp_fixed _ i _).trans (disableEp_fixed i s)) _

theorem execWakeup_fixed (s : State) : FixedNext s (execWakeup s) := by
  unfold execWakeup
  extract_lets s1 d s2
  have resumed : s1.fixed = s.fixed := by
    unfold s1
    split
    · exact deviceResume_fixed s
    · rfl
  exact .answer ((spinRwake_fixed _ s2).trans resumed) _

theorem execSetPullup_fixed (b : Bool) (s : State) : FixedNext s (execSetPullup b s) := by
  refine .answer ?_ _
  split <;> rfl

theorem execBind_fixed (d : Ref) (s : State) : FixedNext s (execBind d s) :=
  .guard <| .guard <| .answer (State.modDev_fixed s _) _

theorem execUnbind_fixed (s : State) : FixedNext s (execUnbind s) := by
  have ep0 : ∀ v : State, (if (((v.maskEpIrq 0).cancelAll 0 .shutdown).ep 0).state ≠ .disabled
      then (((v.maskEpIrq 0).cancelAll 0 .shutdown).postCancel 0).unmaskEpIrq 0
      else (v.maskEpIrq 0).cancelAll 0 .shutdown).fixed = v.fixed := by
    intro v
    have F := (EpFrame.start 0 v).maskEpIrq.cancelAll .shutdown
    split
    · exact F.postCancel.unmaskEpIrq.fixed
    · exact F.fixed
  exact .guard <| .answer ((State.modDev_fixed _ _).trans ((ep0 _).trans (forEps_fixed disableEp_fixed _ s))) _

/-! ### The stimuli -/

theorem atEp_fixed (i : EpIx) (f : State → State) (hf : (f s).fixed = s.fixed) : (s.atEp i f).fixed = s.fixed := by
  unfold State.atEp
  split
  · exact hf
  · rfl

theorem atChan_fixed (c : EpIx) (f : State → State) (hf : (f s).fixed = s.fixed) : (s.atChan c f).fixed = s.fixed := by
  unfold State.atChan
  split
  · exact (State.setDmaPending_fixed _ c true).trans hf
  · rfl

theorem execBusBusreset_fixed (s : State) : FixedNext s (execBusBusreset s) :=
  .next (forEps_fixed (f := fun i s => s.modEp i Endpoint.dropSession) (fun i s => s.modEp_fixed i _) s.epList s)

theorem execBusSetup_fixed (i : EpIx) (p : SetupPacket) (s : State) : FixedNext s (execBusSetup i p s) :=
  .next (atEp_fixed i _ rfl)

theorem execBusRxpkt_fixed (i : EpIx) (bytes : List Byte) (s : State) : FixedNext s (execBusRxpkt i bytes s) := by
  unfold execBusRxpkt
  split
  · exact .refused _
  · split
    · exact .next rfl
    · exact .next (atEp_fixed i _ rfl)

theorem execBusTxdone_fixed (i : EpIx) (s : State) : FixedNext s (execBusTxdone i s) := by
  refine .next (atEp_fixed i _ ?_)
  split <;> rfl

theorem execBusStallsent_fixed (i : EpIx) (s : State) : FixedNext s (execBusStallsent i s) :=
  .next (atEp_fixed i _ rfl)

theorem execBusDmaEob_fixed (c : EpIx) (rem : BitVec 16) (s : State) : FixedNext s (execBusDmaEob c rem s) := by
  refine .next (atChan_fixed c _ ?_)
  dsimp only
  split
  · exact (((EpFrame.start c s).moveSlice _).modChan _).fixed
  · exact ((EpFrame.start c s).scrambleSlice.modChan _).fixed

theorem execBusDmaEoc_fixed (c : EpIx) (s : State) : FixedNext s (execBusDmaEoc c s) :=
  .next (atChan_fixed c _ (((EpFrame.start c s).moveSlice _).modChan _).fixed)

theorem execBusDmaErr_fixed (c : EpIx) (s : State) : FixedNext s (execBusDmaErr c s) :=
  .next (atChan_fixed c _ ((EpFrame.start c s).scrambleSlice.modChan _).fixed)

/-! ### Every instruction -/

theorem exec_fixed (ins : Instr) (s : State) : FixedNext s (exec ins s) := by
  cases ins with
  | configureEndpoint i d => exact execConfigureEndpoint_fixed i d s
  | disableEndpoint i => exact execDisableEndpoint_fixed i s
  | allocateRequest => exact execAllocateRequest_fixed s
  | freeRequest i h => exact execFreeRequest_fixed i h s
  | submit i h => exact execSubmit_fixed i h s
  | cancel i h => exact execCancel_fixed i h s
  | stall i => exact execStall_fixed i s
  | resumeStall i => exact execResumeStall_fixed i s
  | allocateEndpoint n b ty => exact execAllocateEndpoint_fixed n b ty s
  | freeEndpoint i => exact execFreeEndpoint_fixed i s
  | getFrameNumber => exact .next rfl
  | wakeup => exact execWakeup_fixed s
  | setSelfPowered b => exact .next rfl
  | setPullup b => exact execSetPullup_fixed b s
  | bind d => exact execBind_fixed d s
  | unbind => exact execUnbind_fixed s
  | invalidCommand w => exact .next rfl
  | busBusreset => exact execBusBusreset_fixed s
  | busSuspend => exact .next rfl
  | busResume => exact .next rfl
  | busSof f => exact .next rfl
  | busUpresume => exact .next rfl
  | busSetup i p => exact execBusSetup_fixed i p s
  | busRxpkt i bytes => exact execBusRxpkt_fixed i bytes s
  | busTxdone i => exact execBusTxdone_fixed i s
  | busStallsent i => exact execBusStallsent_fixed i s
  | busDmaEob c rem => exact execBusDmaEob_fixed c rem s
  | busDmaEoc c => exact execBusDmaEoc_fixed c s
  | busDmaErr c => exact execBusDmaErr_fixed c s
  | busRwakeDone => exact .next rfl
  | setupGetStatus a => exact reqGetStatus_fixed.receiveSetup s _
  | setupClearFeature a => exact reqClearFeature_fixed.receiveSetup s _
  | setupSetFeature a => exact reqSetFeature_fixed.receiveSetup s _
  | setupSetAddress a => exact reqSetAddress_fixed.receiveSetup s _
  | setupGetDescriptor a => exact reqGetDescriptor_fixed.receiveSetup s _
  | setupSetDescriptor a => exact reqSetDescriptor_fixed.receiveSetup s _
  | setupGetConfiguration a => exact reqGetConfiguration_fixed.receiveSetup s _
  | setupSetConfiguration a => exact reqSetConfiguration_fixed.receiveSetup s _
  | setupGetInterface a => exact reqGetInterface_fixed.receiveSetup s _
  | setupSetInterface a => exact reqSetInterface_fixed.receiveSetup s _
  | setupSynchFrame a => exact reqSynchFrame_fixed.receiveSetup s _
  | setupUnknownStandard code a => exact reqUnknownStandard_fixed.receiveSetup s _
  | setupNonstandardClass code a => exact reqNonstandard_fixed.receiveSetup s _
  | setupNonstandardVendor code a => exact reqNonstandard_fixed.receiveSetup s _
  | setupNonstandardReservedType code a => exact reqNonstandard_fixed.receiveSetup s _

/-! ### Every step -/

theorem releaseOutcome_fixed {o : Host.Outcome State Fault Refusal} (H : FixedNext s o) :
    FixedNext s (releaseOutcome o) := by
  cases o with
  | next t => exact .next ((State.release_fixed t).trans (H t rfl))
  | fault f => exact .fault f
  | refused r => exact .refused r

theorem runRecord_fixed (p : Port) (bytes : List Byte) (rest : List Input) (s : State) :
    FixedNext s (runRecord p bytes rest s) := by
  unfold runRecord
  split
  · next ins _ _ =>
    have H : FixedNext s (exec ins { s with input := rest }) := exec_fixed ins { s with input := rest }
    exact releaseOutcome_fixed H
  · exact .refused _

theorem returnCallback_fixed (r : Result) (s : State) : (returnCallback r s).fixed = s.fixed := by
  unfold returnCallback
  split
  · exact (State.release_fixed _).trans ((onSetupReturn_fixed _ r).trans rfl)
  · rfl
  · rfl

theorem setRequest_fixed (h : Ref) (buf : Word) (len : Len) (nullpkt : Bool) (cb : Ref) (s : State) :
    FixedNext s (setRequest h buf len nullpkt cb s) := by
  unfold setRequest
  split
  · exact .fault _
  · exact .next rfl

theorem pokeBytes_fixed (a : Word) (bytes : List Byte) (s : State) : (pokeBytes a bytes s).fixed = s.fixed := by
  induction bytes generalizing a s with
  | nil => rfl
  | cons b rest ih =>
    unfold pokeBytes
    split
    · exact (ih _ _).trans rfl
    · exact (ih _ _).trans rfl

theorem environmentStep_fixed (s : State) : FixedNext s (environmentStep s) := by
  unfold environmentStep
  split
  · exact .next (enterDispatch_fixed s)
  · exact runRecord_fixed _ _ _ s
  · exact runRecord_fixed _ _ _ s
  · exact .next ((enterDispatch_fixed _).trans rfl)
  · exact .next ((returnCallback_fixed _ _).trans rfl)
  · next rest _ => exact setRequest_fixed _ _ _ _ _ { s with input := rest }
  · exact .next ((pokeBytes_fixed _ _ _).trans rfl)

theorem step_fixed (s : State) : FixedNext s (step s) := by
  unfold step machineStep
  split
  · exact .next rfl
  · split
    · exact runRecord_fixed _ _ _ s
    · exact .next ((State.release_fixed _).trans (dispatchStep_fixed s _ _))
  · exact environmentStep_fixed s
  · exact environmentStep_fixed s

/-- Settles O51: whichever agent acts, the step keeps what is fixed (`step_fixed`). -/
theorem parametersAndPoolNeverChange : Obligations.ParametersAndPoolNeverChange :=
  fun s t e => Prod.mk.inj (step_fixed s t e)

end Sys2Proof.Machine
end

section
/-! SUPPORT. Properties of the state that every small update keeps: `UpdateClosed` packages the closure, and each
procedure on one endpoint keeps such a property because it is a sequence of such updates. -/

namespace Sys2Proof.Machine

/-! ### Two updates of one endpoint, and states that agree -/

theorem State.modEp_modEp (s : State) (i : EpIx) (f g : Endpoint → Endpoint) :
    (s.modEp i f).modEp i g = s.modEp i fun e => g (f e) := by
  have read : (s.modEp i f).ep i = f (s.ep i) := State.modEp_ep_same s i f
  show ({ s with eps := (s.eps.set i (f (s.ep i))).set i (g ((s.modEp i f).ep i)) } : State) = _
  rw [Vector.set_set, read]
  rfl

/-- Two states with equal endpoints and equal other fields are equal. -/
theorem State.eq_of_ep {s t : State} (rest : s = { t with eps := s.eps }) (ep : ∀ j, s.ep j = t.ep j) : s = t := by
  have eps : s.eps = t.eps := Vector.ext fun k hk => ep ⟨k, hk⟩
  rw [rest, eps]

/-- Updates of one endpoint that give the same record give the same state. -/
theorem State.modEp_congr {s : State} {i : EpIx} {f g : Endpoint → Endpoint} (h : f (s.ep i) = g (s.ep i)) :
    s.modEp i f = s.modEp i g := by
  show ({ s with eps := s.eps.set i (f (s.ep i)) } : State) = _
  rw [h]
  rfl

/-- The fields of the Device record that mirror another fact (R35, R44, R47, R289). -/
def Device.mirrors (d : Device) := (d.addr, d.rxpending, d.rwake, d.pullup, d.clkGated)

/-- The fields the invariants of the machine speak of: all but memory, the FIFO's frame number, the pending interrupts,
the descriptors' owners, the agents' positions and the Device fields that mirror nothing. -/
def State.view (s : State) :=
  (s.cfg, s.eps, s.reqs, s.nextReq, s.devAddr, s.intEnable, s.dev.mirrors, s.devCtl.pullup, s.devCtl.clkgate)

theorem State.modDev_view (s : State) {f : Device → Device} (h : ∀ d, (f d).mirrors = d.mirrors) :
    (s.modDev f).view = s.view := by
  show (_, _, _, _, _, _, (f s.dev).mirrors, _, _) = _
  rw [h]
  rfl

theorem State.ep_of_view {s t : State} (h : t.view = s.view) (i : EpIx) : t.ep i = s.ep i := by
  unfold State.ep
  rw [show t.eps = s.eps from congrArg (·.2.1) h]

theorem State.cfg_of_view {s t : State} (h : t.view = s.view) : t.cfg = s.cfg := congrArg (·.1) h
theorem State.reqs_of_view {s t : State} (h : t.view = s.view) : t.reqs = s.reqs := congrArg (·.2.2.1) h
theorem State.nextReq_of_view {s t : State} (h : t.view = s.view) : t.nextReq = s.nextReq := congrArg (·.2.2.2.1) h
theorem State.req_of_view {s t : State} (h : t.view = s.view) (k : Ref) : t.req k = s.req k :=
  State.req_congr (State.reqs_of_view h) k

/-! ### Closure -/

/-- `P` is kept by every update of which the procedures on one endpoint consist: of fields outside `view`, of an endpoint
but for its queue and its held packet, of a request but for its owner, of `rxpend` with its mirror, and `complete`. -/
structure UpdateClosed (P : State → Prop) : Prop where
  view : ∀ {s t : State}, P s → t.view = s.view → P t
  modEp : ∀ {s : State} {i : EpIx} {f : Endpoint → Endpoint}, (f (s.ep i)).queue = (s.ep i).queue →
    (f (s.ep i)).rxpend = (s.ep i).rxpend → P s → P (s.modEp i f)
  modReq : ∀ {s : State} {h : Ref} {f : Request → Request}, (∀ q, (f q).owner = q.owner) → P s → P (s.modReq h f)
  setRxpend : ∀ {s : State} {i : EpIx} {b : Bool}, P s → P (s.setRxpend i b)
  complete : ∀ {s : State} {i : EpIx} {r : Result}, P s → P (s.complete i r)

namespace UpdateClosed

variable {P : State → Prop} (U : UpdateClosed P) {i : EpIx} {s : State}
include U

theorem setEpState {x : EpState} (p : P s) : P (s.setEpState i x) := U.modEp rfl rfl p
theorem modCtl {f : EpCtl → EpCtl} (p : P s) : P (s.modCtl i f) := U.modEp rfl rfl p
theorem fifoWrite {bs : List Byte} (p : P s) : P (s.fifoWrite i bs) := U.modEp rfl rfl p
theorem handTx (p : P s) : P (s.handTx i) := U.modEp rfl rfl p
theorem withdrawTx (p : P s) : P (s.withdrawTx i) := U.modEp rfl rfl p
theorem nextBank (p : P s) : P (s.nextBank i) := U.modEp rfl rfl p
theorem releaseRx (p : P s) : P (s.releaseRx i) := U.modEp rfl rfl p
theorem maskEpIrq (p : P s) : P (s.maskEpIrq i) := U.modEp rfl rfl p

theorem unmaskEpIrq (p : P s) : P (s.unmaskEpIrq i) := by
  unfold State.unmaskEpIrq
  split <;> exact U.modEp rfl rfl p

theorem draw {n : Nat} (p : P s) : P (s.draw n) := U.view p rfl
theorem emit {e : Event} (p : P s) : P (s.emit e) := U.view p rfl
theorem memWrite {a : Word} {bs : List Byte} (p : P s) : P (s.memWrite a bs) := U.view p rfl
theorem setDmaPending {b : Bool} (p : P s) : P (s.setDmaPending i b) := U.view p rfl
theorem fifoReadRx {n : Nat} (p : P s) : P (s.fifoReadRx i n).2 := U.draw (U.modEp rfl rfl p)

/-! #### The queue -/

theorem completeEach {r : Result} (l : List Ref) {s : State} (p : P s) : P (completeEach i r l s) := by
  induction l generalizing s with
  | nil => exact p
  | cons _ rest ih => exact ih (U.complete p)

theorem drain {r : Result} (p : P s) : P (s.drain i r) := U.completeEach _ p
theorem cancelAll {r : Result} (p : P s) : P (s.cancelAll i r) := U.modEp rfl rfl (U.drain p)

/-! #### DMA -/

theorem scrambleSlice (p : P s) : P (s.scrambleSlice i) := by
  unfold State.scrambleSlice
  dsimp only
  split
  · exact U.draw (U.modEp rfl rfl (U.draw (U.memWrite p)))
  · exact p

theorem dropInflight (p : P s) : P (s.dropInflight i) := by
  unfold State.dropInflight
  split
  · exact p
  · exact U.modReq (fun _ => rfl) p

theorem dmaStop (p : P s) : P (s.dmaStop i) :=
  U.dropInflight (s := State.setDmaPending _ i false) (U.setDmaPending (U.modEp rfl rfl (U.scrambleSlice p)))

theorem dmaStopIfBusy (p : P s) : P (s.dmaStopIfBusy i) := by
  unfold State.dmaStopIfBusy
  split
  · exact U.dmaStop p
  · exact p

theorem dmaSlice (p : P s) : P (s.dmaSlice i) := by
  unfold State.dmaSlice
  split
  · exact p
  · dsimp only
    refine U.modEp rfl rfl (U.modReq (fun _ => rfl) ?_)
    split
    · exact U.emit p
    · exact p

theorem dmaZlp {h : Ref} (p : P s) : P (s.dmaZlp i h) :=
  U.setEpState (U.nextBank (U.modCtl (U.handTx (U.modReq (fun _ => rfl) (U.fifoWrite p)))))

theorem dmaStartLoop (k : Nat) {s : State} (p : P s) : P (dmaStartLoop i k s) := by
  induction k generalizing s with
  | zero => exact p
  | succ k ih =>
    unfold Machine.dmaStartLoop
    split
    · exact p
    · split
      · split
        · exact U.dmaZlp p
        · exact ih (U.setEpState (U.complete p))
      · exact U.dmaSlice (U.setEpState p)

theorem countSlice {h : Ref} {k : Len} (p : P s) : P (s.countSlice i h k) := by
  unfold State.countSlice
  dsimp only
  refine U.modReq (fun _ => rfl) ?_
  split
  · exact p
  · exact U.emit p

/-! #### The packet copier -/

theorem countSent {h : Ref} (p : P s) : P (s.countSent h) := U.modReq (fun _ => rfl) p

theorem oweZlp {h : Ref} (p : P s) : P (s.oweZlp i h) := by
  unfold State.oweZlp
  split
  · exact U.modEp rfl rfl p
  · exact p

theorem sendPacket {h : Ref} (p : P s) : P (s.sendPacket i h) :=
  U.setEpState (U.nextBank (U.handTx (U.modReq (fun _ => rfl) (U.fifoWrite (U.modEp rfl rfl p)))))

theorem writeLoop (k : Nat) {s : State} (p : P s) : P (writeLoop i k s) := by
  induction k generalizing s with
  | zero => exact p
  | succ k ih =>
    unfold Machine.writeLoop
    split
    · exact U.setEpState p
    · next h _ =>
      dsimp only
      have counted : P ((s.countSent h).oweZlp i h) := U.oweZlp (U.countSent p)
      split
      · exact U.sendPacket counted
      · exact ih (U.complete counted)

theorem writeProcess (p : P s) : P (s.writeProcess i) := U.writeLoop _ p

theorem readBank {h : Ref} (p : P s) : P (s.readBank i h) :=
  U.nextBank (U.releaseRx (U.modReq (fun _ => rfl) (U.memWrite (U.fifoReadRx p))))

theorem readLoop (k : Nat) {s : State} (p : P s) : P (readLoop i k s) := by
  induction k generalizing s with
  | zero => exact p
  | succ k ih =>
    unfold Machine.readLoop
    split
    · exact U.setEpState p
    · next h _ =>
      split
      · exact ih (U.complete p)
      · dsimp only
        split
        · have read : P ((((s.setEpState i .receiving).setRxpend i false).modCtl i
              fun c => { c with rxrdyIe := true }).readBank i h) :=
            U.readBank (U.modCtl (U.setRxpend (U.setEpState p)))
          split
          · exact ih (U.setEpState (U.complete read))
          · exact read
        · exact U.setEpState p

theorem readPacket (p : P s) : P (s.readPacket i) := by
  unfold State.readPacket
  split
  · exact p
  · dsimp only
    split
    · exact U.readLoop _ (U.setEpState (U.complete (U.readBank p)))
    · exact U.readBank p

theorem startTransfer (p : P s) : P (s.startTransfer i) := by
  unfold State.startTransfer State.dmaStart State.readStart
  split
  · exact p
  · split
    · split
      · exact p
      · exact U.dmaStartLoop _ p
    · split
      · exact U.writeProcess p
      · exact U.readLoop _ p

/-! #### A bus reset's part at one endpoint -/

theorem resetEp (p : P s) : P (s.resetEp i) :=
  U.withdrawTx (U.setRxpend (U.modEp rfl rfl (U.cancelAll (U.dmaStopIfBusy (U.maskEpIrq p)))))

omit U in
theorem forEps {f : EpIx → State → State} (hf : ∀ i s, P s → P (f i s)) (is : List EpIx) {s : State} (p : P s) :
    P (s.forEps is f) := by
  induction is generalizing s with
  | nil => exact p
  | cons i rest ih => exact ih (hf i s p)

end UpdateClosed

end Sys2Proof.Machine
end

section
/-! SUPPORT. Procedures on one endpoint restated as named updates: stalling (R140), stopping a channel (R207), giving up a
held packet (R35), enabling the interrupts (R119) and programming an endpoint (R120). -/

namespace Sys2Proof.Machine

variable {s t : State} {i : EpIx}

/-! ### Stalling, restated -/

/-- EP0 forgets its OUT data stage and its pending address (R140). -/
def State.forgetEp0 (s : State) (i : EpIx) : State :=
  if i = 0 then s.modDev fun d => { d with scratchCount := 0, pendingAddr := 0 } else s

@[simp] theorem State.forgetEp0_ep (s : State) (i j : EpIx) : (s.forgetEp0 i).ep j = s.ep j := by
  unfold State.forgetEp0
  split <;> rfl

/-- The end of `stall`: the owed packet and the banks are dropped, and the endpoint is `Stalled` (R140). -/
def State.freezeEp (s : State) (i : EpIx) : State :=
  (((s.forgetEp0 i).modEp i fun e => { e with txnullpkt := false }).withdrawTx i).modEp i fun e =>
    { e with state := .stalled, stalled := true, ctl := { e.ctl with forcestall := true } }

theorem State.moving_iff (s : State) (i : EpIx) :
    s.moving i = true ↔ (s.ep i).state = .sending ∨ (s.ep i).state = .receiving := by
  unfold State.moving
  simp

theorem State.not_moving_of_state {x : EpState} (h : (s.ep i).state = x) (hs : x ≠ .sending) (hr : x ≠ .receiving) :
    s.moving i = false := by
  unfold State.moving
  rw [h]
  simp [hs, hr]

theorem State.stallEp_moving (hm : s.moving i = true) :
    s.stallEp i = (((s.dmaStopIfBusy i).dropInflight i).complete i .ioError).freezeEp i := by
  have hm := (State.moving_iff s i).mp hm
  unfold State.stallEp
  split
  · next h => simp [h] at hm
  · next h => simp [h] at hm
  · dsimp only
    rw [if_pos hm]
    rfl

theorem State.stallEp_still (hm : s.moving i = false) (hd : (s.ep i).state ≠ .disabled)
    (hs : (s.ep i).state ≠ .stalled) : s.stallEp i = s.freezeEp i := by
  have hm := mt (State.moving_iff s i).mpr (by simp [hm])
  unfold State.stallEp
  split
  · next h => exact absurd h hd
  · next h => exact absurd h hs
  · dsimp only
    rw [if_neg hm]
    rfl

theorem State.stallEp_off (h : (s.ep i).state = .disabled ∨ (s.ep i).state = .stalled) : s.stallEp i = s := by
  unfold State.stallEp
  rcases h with h | h <;> rw [h]

theorem State.freezeEp_ep (s : State) (i j : EpIx) :
    (s.freezeEp i).ep j = if j = i then { s.ep i with
      state := .stalled, stalled := true, txnullpkt := false
      ctl := { (s.ep i).ctl with forcestall := true, txpktrdy := false }
      fifo := { (s.ep i).fifo with fill := [], tx := [] } } else s.ep j := by
  unfold State.freezeEp
  by_cases hj : j = i
  · subst hj; simp
  · simp [hj]

/-- The state before does not matter to `freezeEp`. -/
theorem State.freezeEp_setEpState (x : EpState) : (s.setEpState i x).freezeEp i = s.freezeEp i := by
  refine State.eq_of_ep ?_ fun j => ?_
  · unfold State.freezeEp State.forgetEp0
    split <;> rfl
  · rw [State.freezeEp_ep, State.freezeEp_ep]
    split
    · simp
    · next hj => simp [hj]

theorem State.stallEp_state (h : (s.ep i).state ≠ .disabled) : ((s.stallEp i).ep i).state = .stalled := by
  by_cases hs : (s.ep i).state = .stalled
  · rw [State.stallEp_off (.inr hs), hs]
  · cases hm : s.moving i with
    | true => rw [State.stallEp_moving hm, State.freezeEp_ep, if_pos rfl]
    | false => rw [State.stallEp_still hm h hs, State.freezeEp_ep, if_pos rfl]

/-! ### Stopping a channel, restated -/

theorem State.dmaStop_eq (s : State) (i : EpIx) :
    s.dmaStop i = (((s.scrambleSlice i).modEp i fun e =>
      { e with
        chan := { e.chan with en := false, ie := false, eob := false, eoc := false, err := false, running := false }
        dmaBusy := false }).setDmaPending i false).dropInflight i := rfl

@[simp] theorem State.dropInflight_ep (s : State) (i j : EpIx) : (s.dropInflight i).ep j = s.ep j := by
  unfold State.dropInflight
  split <;> rfl

/-- What stopping a busy channel leaves of its endpoint (R207). -/
theorem State.dmaStopIfBusy_ep_same (s : State) (i : EpIx) :
    (s.dmaStopIfBusy i).ep i = { s.ep i with
      dmaBusy := false
      chan := (s.ep i).stoppedChan (!(s.ep i).dmaBusy && (s.ep i).chan.ie)
      fifo := { (s.ep i).fifo with rx := ((s.dmaStopIfBusy i).ep i).fifo.rx } } := by
  unfold State.dmaStopIfBusy
  split
  · next hb =>
    obtain ⟨-, -, ep, -⟩ := State.scrambleSlice_spec s i
    rw [State.dmaStop_eq, State.dropInflight_ep, State.setDmaPending_ep, State.modEp_ep_same, ep]
    simp [Endpoint.stoppedChan, hb]
  · next hb =>
    have hb : (s.ep i).dmaBusy = false := by simpa using hb
    have chan : (s.ep i).stoppedChan (!(s.ep i).dmaBusy && (s.ep i).chan.ie) = (s.ep i).chan := by
      simp [Endpoint.stoppedChan, hb]
    rw [chan, ← hb]

theorem State.dmaStopIfBusy_moving (s : State) (i : EpIx) : (s.dmaStopIfBusy i).moving i = s.moving i := by
  unfold State.moving
  rw [State.dmaStopIfBusy_ep_same]

/-! ### Held packets and interrupt enables, restated -/

/-- A packet is held for another endpoint than `i`. -/
def State.othersHeld (s : State) (i : EpIx) : Bool := s.epList.any fun k => decide (k ≠ i) && (s.ep k).rxpend

@[simp] theorem State.othersHeld_modEp (s : State) (i : EpIx) (f : Endpoint → Endpoint) :
    (s.modEp i f).othersHeld i = s.othersHeld i := by
  unfold State.othersHeld
  congr 1
  funext k
  by_cases hk : k = i
  · simp [hk]
  · simp [hk]

/-- Giving up a held packet leaves `dev.rxpending` to the other endpoints (R35). -/
theorem State.setRxpend_false (s : State) (i : EpIx) :
    s.setRxpend i false = (s.modEp i fun e => { e with rxpend := false }).modDev
      fun d => { d with rxpending := s.othersHeld i } := by
  have others : (s.epList.any fun k => ((s.modEp i fun e => { e with rxpend := false }).ep k).rxpend) =
      s.othersHeld i := by
    unfold State.othersHeld
    congr 1
    funext k
    by_cases hk : k = i
    · simp [hk]
    · simp [hk]
  rw [← others]
  rfl

/-- An endpoint with its interrupts enabled: a DMA endpoint reports packets only through its channel (R119). -/
def Endpoint.unmasked (i : EpIx) (dma : Bool) (e : Endpoint) : Endpoint :=
  { e with
    irqEn := true
    ctl := { e.ctl with
      stallsentIe := true
      setupIe := decide (i = 0)
      txdoneIe := !dma && (decide (i = 0) || decide (e.dir = .dirIn))
      rxrdyIe := !dma && (decide (i = 0) || !decide (e.dir = .dirIn)) }
    chan := { e.chan with ie := dma || e.chan.ie } }

theorem State.unmaskEpIrq_eq (s : State) (i : EpIx) :
    s.unmaskEpIrq i = s.modEp i (Endpoint.unmasked i (s.hasDma i)) := by
  unfold State.unmaskEpIrq Endpoint.unmasked
  split
  · next hd => simp [hd]
  · next hd =>
    have hd : s.hasDma i = false := by simpa using hd
    by_cases h0 : i = 0
    · subst h0; simp [hd]
    · simp [hd, h0]

/-! ### Configuring, restated -/

/-- The fields configuring an endpoint writes, its state included (R120). -/
def Endpoint.programmed (i : EpIx) (d : EpDesc) (banks : Nat) (e : Endpoint) : Endpoint :=
  { e with
    dir := if i = 0 then .bidir else descDir d
    type := descType d
    mps := d.mps
    banks := banks
    bank := 0
    state := .idle
    stalled := false
    halted := false
    txnullpkt := false
    ctl := { e.ctl with mps := d.mps, forcestall := false, enable := true } }

/-- Configuring writes the endpoint's fields, then gives up a held packet, then enables the interrupts (R120). -/
theorem State.programEp_eq (s : State) (i : EpIx) (d : EpDesc) :
    s.programEp i d = ((s.modEp i (Endpoint.programmed i d (s.epBanks i))).setRxpend i false).unmaskEpIrq i := by
  unfold State.programEp
  dsimp only
  rw [State.unmaskEpIrq_eq, State.unmaskEpIrq_eq, State.setRxpend_false, State.setRxpend_false]
  simp only [State.othersHeld_modEp]
  refine State.eq_of_ep rfl fun j => ?_
  by_cases hj : j = i
  · subst hj; simp [Endpoint.unmasked, Endpoint.programmed, State.hasDma]
  · simp [hj]

end Sys2Proof.Machine
end

section
/-! SUPPORT. What an invariant of the machine has to satisfy so that every step keeps it, said once: a list of closure
facts about the named updates and procedures (`OpsInvariant` for the operations, `StepInvariant` for the handlers too),
and the walk through every operation, handler and agent that they are enough for. An invariant may be suspended at the
endpoints of a set `W`: those whose queue is about to be started. -/

namespace Sys2Proof.Machine

/-! ### Quiet updates of an endpoint -/

/-- An update from `e` to `e'` of endpoint `i`, a DMA endpoint if `dma`, that starts nothing: the flags agree with the
state if they did, the queue and the held packet stay, no slice starts, and no interrupt enable is set that belongs to the
other kind of endpoint. -/
structure Endpoint.Quiet (i : EpIx) (dma : Bool) (e e' : Endpoint) : Prop where
  consistent : e.consistent i → e'.consistent i
  queue : e'.queue = e.queue
  rxpend : e'.rxpend = e.rxpend
  slice : e'.chan.running = true → e.chan.running = true ∧ e'.dmaBusy = e.dmaBusy ∧
    e'.chan.count = e.chan.count ∧ e'.chan.addr = e.chan.addr
  chanIe : e'.chan.ie = true → e.chan.ie = true ∨ dma = true
  rxIe : e'.ctl.rxrdyIe = true → e.ctl.rxrdyIe = true ∨ dma = false

/-- The fields of an endpoint that its flags' agreement with its state speaks of. -/
def Endpoint.flags (e : Endpoint) :=
  (e.state, e.stalled, e.halted, e.fifo.fill, e.fifo.tx, e.ctl.txpktrdy)

theorem Endpoint.consistent_of_flags {i : EpIx} {e e' : Endpoint} (h : e'.flags = e.flags) (c : e.consistent i) :
    e'.consistent i := by
  simp only [Endpoint.flags, Prod.mk.injEq] at h
  obtain ⟨hs, hst, hh, hf, ht, hp⟩ := h
  unfold Endpoint.consistent at *
  rw [hs, hst, hh, hf, ht, hp]
  exact c

/-- The fields of an endpoint that say what it has under way. -/
def Endpoint.work (e : Endpoint) := (e.rxpend, e.queue, e.dmaBusy, e.chan, e.ctl.rxrdyIe)

/-- An update that leaves what is under way is quiet if it keeps the flags' agreement. -/
theorem Endpoint.Quiet.of_work {i : EpIx} {dma : Bool} {e e' : Endpoint} (c : e.consistent i → e'.consistent i)
    (h : e'.work = e.work) : e.Quiet i dma e' := by
  simp only [Endpoint.work, Prod.mk.injEq] at h
  obtain ⟨hr, hq, hb, hc, hx⟩ := h
  refine ⟨c, hq, hr, fun a => ?_, fun a => .inl (hc ▸ a), fun a => .inl (hx ▸ a)⟩
  rw [hc] at a ⊢
  exact ⟨a, hb, rfl, rfl⟩

/-- No slice of endpoint `i` can be under way: its channel is not busy, it has no channel (R8), or its head request has
no bytes to move. -/
def State.parked (s : State) (i : EpIx) : Prop :=
  (s.ep i).dmaBusy = false ∨ i = 0 ∨ ∃ h rest, (s.ep i).queue = h :: rest ∧ (s.req h).len = 0

/-! ### The closure facts -/

/-- What the operations need of an invariant `I`, suspended at the endpoints of a set. -/
structure OpsInvariant (I : Set EpIx → State → Prop) : Prop where
  view : ∀ {W s t}, I W s → t.view = s.view → I W t
  mono : ∀ {W W' s}, W ⊆ W' → I W s → I W' s
  /-- Quiet updates that keep the endpoint's state. -/
  touch : ∀ {W s i f}, (s.ep i).Quiet i (s.hasDma i) (f (s.ep i)) → (f (s.ep i)).state = (s.ep i).state → I W s →
    I W (s.modEp i f)
  /-- Quiet updates to a state that is no transfer, with nothing under way. -/
  settle : ∀ {W s i f}, (s.ep i).Quiet i (s.hasDma i) (f (s.ep i)) →
    (f (s.ep i)).state ≠ .sending ∧ (f (s.ep i)).state ≠ .receiving → s.moving i = false ∨ (s.ep i).queue = [] →
    ((f (s.ep i)).state = .idle → i ∈ W ∨ (s.ep i).queue = []) → I (insert i W) s → I W (s.modEp i f)
  setRxpend : ∀ {W s i b}, I W s → I W (s.setRxpend i b)
  start : ∀ {W s i}, (s.ep i).state = .idle → I (insert i W) s → I W (s.startTransfer i)
  /-- A transfer ends, and the next request waits. -/
  finish : ∀ {W s i r}, s.moving i = true → s.parked i → I W s → I (insert i W) ((s.complete i r).setEpState i .idle)
  drain : ∀ {W s i r}, s.parked i → I W s → I (insert i W) (s.drain i r)
  dropInflight : ∀ {W s i}, s.parked i → I W s → I W (s.dropInflight i)
  submit : ∀ {s i h}, s.accepts i h → I ∅ s →
    I (if (s.ep i).state = .idle then {i} else ∅) ((s.modReq h submitted).enqueue i h)
  allocate : ∀ {s}, s.nextReq ≠ nullRef → I ∅ s →
    I ∅ { s with reqs := (s.nextReq, Request.fresh) :: s.reqs, nextReq := s.nextReq + 1 }
  free : ∀ {s h}, (s.req h).owner ≠ .engine → I ∅ s → I ∅ { s with reqs := s.reqs.filter fun p => decide (p.1 ≠ h) }
  setReq : ∀ {s h buf len nullpkt cb}, (s.hasReq h = true → (s.req h).owner ≠ .engine) → I ∅ s →
    I ∅ (s.modReq h fun q => { q with buf := buf, len := len, nullpkt := nullpkt, callback := cb })
  pullup : ∀ {s b}, I ∅ s → I ∅ { s with dev := { s.dev with pullup := b }, devCtl := { s.devCtl with pullup := b } }
  clkgate : ∀ {s b}, I ∅ s →
    I ∅ { s with dev := { s.dev with clkGated := b }, devCtl := { s.devCtl with clkgate := b } }

/-- What the handlers need of it besides. Where a procedure runs because an interrupt was enabled, the enable was
sampled in a state `s₀` in which the invariant held. -/
structure StepInvariant (I : Set EpIx → State → Prop) : Prop extends OpsInvariant I where
  applyAddress : ∀ {s i}, (s.ep i).state = .ep0Address → I ∅ s → I ∅ s.applyAddress
  write : ∀ {s i}, ((s.ep i).state = .sending ∧ s.hasDma i = false) ∨ (s.ep i).state = .ep0StatusIn → I ∅ s →
    I ∅ (s.writeProcess i)
  read : ∀ {s₀ s i}, I ∅ s₀ → (s₀.ep i).ctl.rxrdyIe = true → s.cfg = s₀.cfg → (s.ep i).state = .receiving → I ∅ s →
    I ∅ (s.readPacket i)
  countSlice : ∀ {s i h k}, s.parked i → s.peek i = some h → s.moving i = true →
    k ≤ (s.req h).inflight → I ∅ s → I ∅ (s.countSlice i h k)
  dmaSlice : ∀ {s₀ s i h}, I ∅ s₀ → (s₀.ep i).chan.ie = true → s.cfg = s₀.cfg → s.peek i = some h →
    s.moving i = true → (s.req h).xfrd < (s.req h).len → I ∅ s → I ∅ (s.dmaSlice i)
  busReset : ∀ {s}, I ∅ s → I ∅ s.busReset

namespace OpsInvariant

variable {I : Set EpIx → State → Prop} (V : OpsInvariant I) {W : Set EpIx} {i : EpIx} {s : State}
include V

/-! ### Named updates -/

theorem answer {r : Result} (p : I W s) : I W (s.answer r) := V.view p rfl
theorem callback {c : Callback} (p : I W s) : I W (s.callback c) := V.view p rfl
theorem emit {e : Event} (p : I W s) : I W (s.emit e) := V.view p rfl
theorem draw {n : Nat} (p : I W s) : I W (s.draw n) := V.view p rfl
theorem memWrite {a : Word} {bs : List Byte} (p : I W s) : I W (s.memWrite a bs) := V.view p rfl
theorem setDmaPending {b : Bool} (p : I W s) : I W (s.setDmaPending i b) := V.view p rfl
theorem release (p : I W s) : I W s.release := V.view p rfl

theorem modDev {f : Device → Device} (h : ∀ d, (f d).mirrors = d.mirrors) (p : I W s) : I W (s.modDev f) :=
  V.view p (s.modDev_view h)

theorem notify {c : Callback} (p : I W s) : I W (s.notify c) := by
  unfold State.notify
  split
  · exact p
  · exact V.callback p

/-- An update that keeps the flags and what is under way. -/
theorem inert {f : Endpoint → Endpoint} (flags : ∀ e, (f e).flags = e.flags) (work : ∀ e, (f e).work = e.work)
    (p : I W s) : I W (s.modEp i f) :=
  V.touch (.of_work (Endpoint.consistent_of_flags (flags _)) (work _)) (congrArg (·.1) (flags _)) p

theorem modSta {f : EpSta → EpSta} (p : I W s) : I W (s.modSta i f) := V.inert (fun _ => rfl) (fun _ => rfl) p
theorem ackTxdone (p : I W s) : I W (s.ackTxdone i) := V.modSta p
theorem ackStallsent (p : I W s) : I W (s.ackStallsent i) := V.modSta p
theorem ackSetup (p : I W s) : I W (s.ackSetup i) := V.modSta p
theorem discardSetup {n : Nat} (p : I W s) : I W (s.discardSetup i n) := V.inert (fun _ => rfl) (fun _ => rfl) p
theorem releaseRx (p : I W s) : I W (s.releaseRx i) := V.inert (fun _ => rfl) (fun _ => rfl) p
theorem fifoReadRx {n : Nat} (p : I W s) : I W (s.fifoReadRx i n).2 := V.draw (V.inert (fun _ => rfl) (fun _ => rfl) p)
theorem fifoReadSetup {n : Nat} (p : I W s) : I W (s.fifoReadSetup i n).2 := V.draw (V.inert (fun _ => rfl) (fun _ => rfl) p)

theorem withdrawTx (p : I W s) : I W (s.withdrawTx i) :=
  V.touch (.of_work (fun ⟨st, ha, ep0, _, _⟩ => ⟨st, ha, ep0, rfl, nofun⟩) rfl) rfl p

theorem sendTx (p : I W s) : I W (s.sendTx i) :=
  V.touch (.of_work (fun ⟨st, ha, ep0, fill, _⟩ => ⟨st, ha, ep0, fill, nofun⟩) rfl) rfl (V.emit p)

theorem dropSession (p : I W s) : I W (s.modEp i Endpoint.dropSession) :=
  V.touch (.of_work (fun ⟨st, ha, ep0, _, _⟩ => ⟨st, ha, ep0, rfl, nofun⟩) rfl) rfl p

theorem maskEpIrq (p : I W s) : I W (s.maskEpIrq i) :=
  V.touch ⟨fun c => c, rfl, rfl, fun a => ⟨a, rfl, rfl, rfl⟩, nofun, nofun⟩ rfl p

theorem unmaskEpIrq (p : I W s) : I W (s.unmaskEpIrq i) := by
  rw [State.unmaskEpIrq_eq]
  refine V.touch ⟨fun c => c, rfl, rfl, fun a => ⟨a, rfl, rfl, rfl⟩, fun a => ?_, fun a => ?_⟩ rfl p
  · simpa [Endpoint.unmasked, or_comm] using a
  · simp only [Endpoint.unmasked, Bool.and_eq_true, Bool.not_eq_true'] at a
    exact .inr a.1

theorem holdRx (p : I W s) : I W (s.holdRx i) := by
  unfold State.holdRx State.modCtl
  exact V.touch ⟨fun c => c, rfl, rfl, fun a => ⟨a, rfl, rfl, rfl⟩, .inl, nofun⟩ rfl (V.setRxpend p)

/-! ### DMA -/

theorem scrambleSlice (p : I W s) : I W (s.scrambleSlice i) := by
  unfold State.scrambleSlice
  dsimp only
  split
  · exact V.draw (V.inert (fun _ => rfl) (fun _ => rfl) (V.draw (V.memWrite p)))
  · exact p

theorem moveSlice {k : Nat} (p : I W s) : I W (s.moveSlice i k) := by
  unfold State.moveSlice
  dsimp only
  split
  · split
    · have emptied : I W (s.modEp i fun e => { e with fifo := { e.fifo with fill := [] } }) :=
        V.touch (.of_work (fun ⟨st, ha, ep0, _, tx⟩ => ⟨st, ha, ep0, rfl, tx⟩) rfl) rfl p
      have streamed : ∀ bs, (s.fifoWrite i bs).streamTx i =
          (s.modEp i fun e => { e with fifo := { e.fifo with fill := [] } }).emit
            (.sent i ((s.fifoWrite i bs).ep i).fifo.fill) := by
        intro bs
        exact congrArg (State.emit · _) (State.modEp_modEp s i
          (fun e => { e with fifo := { e.fifo with fill := e.fifo.fill ++ bs } })
          fun e => { e with fifo := { e.fifo with fill := [] } })
      rw [streamed]
      exact V.emit emptied
    · exact V.memWrite (V.fifoReadRx p)
  · exact p

/-- A channel that reports or is stopped moves nothing any more. -/
theorem endSlice {f : Endpoint → Endpoint} (run : (f (s.ep i)).chan.running = false)
    (ie : (f (s.ep i)).chan.ie = true → (s.ep i).chan.ie = true)
    (rest : ∃ b c, f (s.ep i) = { s.ep i with dmaBusy := b, chan := c }) (p : I W s) : I W (s.modEp i f) := by
  obtain ⟨b, c, e⟩ := rest
  refine V.touch ?_ (by rw [e]) p
  rw [e] at run ie ⊢
  exact ⟨fun c => c, rfl, rfl, fun a => absurd a (by rw [run]; decide), fun a => .inl (ie a), .inl⟩

theorem dmaStop (p : I W s) : I W (s.dmaStop i) := by
  rw [State.dmaStop_eq]
  exact V.dropInflight (.inl (by simp)) (V.setDmaPending (V.endSlice rfl nofun ⟨_, _, rfl⟩ (V.scrambleSlice p)))

theorem dmaStopIfBusy (p : I W s) : I W (s.dmaStopIfBusy i) := by
  unfold State.dmaStopIfBusy
  split
  · exact V.dmaStop p
  · exact p

end OpsInvariant

end Sys2Proof.Machine
end

section
/-! SUPPORT. The walk through the procedures on one endpoint and on EP0: each keeps every `OpsInvariant`. -/

namespace Sys2Proof.Machine

/-! ### The SETUP stage, restated -/

/-- What a SETUP packet `p` ends on EP0: its requests, an owed packet, the banks, and the previous data stage (R230). -/
def State.setupEnd (s : State) (p : SetupPacket) : State :=
  (((((s.modDev fun d => { d with ctrl := p }).ackSetup 0).drain 0 .ok).modEp 0
    fun e => { e with txnullpkt := false }).withdrawTx 0).modDev fun d => { d with scratchCount := 0, pendingAddr := 0 }

/-- An endpoint in state `x` with a stall cleared. -/
def Endpoint.unstalled (x : EpState) (e : Endpoint) : Endpoint :=
  { e with
    state := x
    stalled := if e.state = .stalled then false else e.stalled
    halted := if e.state = .stalled then false else e.halted
    ctl := { e.ctl with forcestall := if e.state = .stalled then false else e.ctl.forcestall } }

/-- EP0 once a SETUP packet has ended what was under way: `Idle`, with a stall cleared (R230). -/
def State.setupIdle (s : State) (p : SetupPacket) : State := (s.setupEnd p).modEp 0 (Endpoint.unstalled .idle)

theorem State.unstall_setEpState (s : State) (x : EpState) :
    (if (s.ep 0).state = .stalled then
      s.modEp 0 fun e => { e with stalled := false, halted := false, ctl := { e.ctl with forcestall := false } }
      else s).setEpState 0 x = s.modEp 0 (Endpoint.unstalled x) := by
  split
  · next h =>
    refine (State.modEp_modEp _ _ _ _).trans (State.modEp_congr ?_)
    simp [Endpoint.unstalled, h]
  · next h => exact State.modEp_congr (by simp [Endpoint.unstalled, h])

@[simp] theorem State.setupEnd_cfg (s : State) (p : SetupPacket) : (s.setupEnd p).cfg = s.cfg :=
  State.drain_cfg ((s.modDev fun d => { d with ctrl := p }).ackSetup 0) 0 .ok

/-- The SETUP stage: EP0 is made `Idle`, and then a data stage is awaited, or refused, or the request runs (R230 to
R232). -/
theorem State.setupAccept_eq (s : State) (p : SetupPacket) (go : State → State) :
    s.setupAccept p go =
      if p.dirIn = false ∧ p.length ≠ 0 then
        if s.cfg.ep0ScratchSize < p.length.toNat then (s.setupIdle p).ep0Stall
        else (s.setupIdle p).setEpState 0 .ep0DataOut
      else go (s.setupIdle p) := by
  have stage : (s.setupIdle p).setEpState 0 .ep0DataOut = (s.setupEnd p).modEp 0 (Endpoint.unstalled .ep0DataOut) :=
    State.modEp_modEp (s.setupEnd p) 0 _ _
  have size : (if ((s.setupEnd p).ep 0).state = .stalled then
      (s.setupEnd p).modEp 0
        fun e => { e with stalled := false, halted := false, ctl := { e.ctl with forcestall := false } }
      else s.setupEnd p).cfg = s.cfg := by
    rw [← State.setupEnd_cfg s p]
    split <;> rfl
  rw [stage, State.setupIdle, ← State.unstall_setEpState, ← State.unstall_setEpState, ← size]
  rfl

theorem State.setupEnd_ep_same (s : State) (p : SetupPacket) :
    (s.setupEnd p).ep 0 = { s.ep 0 with
      queue := [], txnullpkt := false
      sta := { (s.ep 0).sta with setup := false }
      ctl := { (s.ep 0).ctl with txpktrdy := false }
      fifo := { (s.ep 0).fifo with fill := [], tx := [] } } := by
  unfold State.setupEnd
  simp

theorem State.startTransfer_nil {s : State} {i : EpIx} (h : (s.ep i).queue = []) : s.startTransfer i = s := by
  unfold State.startTransfer
  rw [h]
  rfl

namespace OpsInvariant

variable {I : Set EpIx → State → Prop} (V : OpsInvariant I) {W : Set EpIx} {i : EpIx} {s : State}
include V

/-! ### Procedures on one endpoint -/

omit V in
theorem parked_dmaStopIfBusy : (s.dmaStopIfBusy i).parked i := .inl (by rw [State.dmaStopIfBusy_ep_same])

/-- An `Idle` endpoint with no request queued waits for nothing. -/
theorem rested (hs : (s.ep i).state = .idle) (hq : (s.ep i).queue = []) (p : I (insert i W) s) : I W s := by
  have started := V.start hs p
  rwa [State.startTransfer_nil hq] at started

theorem wait (p : I W s) : I (insert i W) s := V.mono (Set.subset_insert i W) p

theorem completeAndStart {r : Result} (hm : s.moving i = true) (hp : s.parked i) (p : I W s) :
    I W (s.completeAndStart i r) :=
  V.start (by simp) (V.finish hm hp p)

theorem cancelAll {r : Result} (hp : s.parked i) (p : I W s) : I (insert i W) (s.cancelAll i r) :=
  V.inert (fun _ => rfl) (fun _ => rfl) (V.drain hp p)

/-- Cancelling a queue and leaving the transfer (R172, R173). -/
theorem cancel {r : Result} (hp : s.parked i) (p : I W s) : I W ((s.cancelAll i r).postCancel i) := by
  have empty : ((s.cancelAll i r).ep i).queue = [] := by rw [State.cancelAll_ep_same]
  refine V.withdrawTx (V.settle (.of_work ?_ rfl) ?_ (.inr empty) (fun _ => .inr empty) (V.cancelAll hp p))
  · rintro ⟨st, ha, ep0, fill, tx⟩
    refine ⟨?_, ha, fun h => ?_, fill, tx⟩
    · dsimp only
      split
      · next h => rcases h with h | h <;> simpa [h] using st
      · exact st
    · dsimp only
      split
      · decide
      · exact ep0 h
  · dsimp only
    split
    · decide
    · next h => exact not_or.mp h

/-- Cancelling a queue and disabling the endpoint (R124, R172). -/
theorem shut {r : Result} (hp : s.parked i) (p : I W s) :
    I W ((s.cancelAll i r).modEp i fun e => { e with
      state := .disabled, stalled := false, halted := false, txnullpkt := false
      ctl := { e.ctl with enable := false, forcestall := false } }) := by
  have empty : ((s.cancelAll i r).ep i).queue = [] := by rw [State.cancelAll_ep_same]
  exact V.settle (.of_work (fun ⟨_, _, _, fill, tx⟩ => ⟨rfl, nofun, fun _ => ⟨nofun, nofun, nofun⟩, fill, tx⟩) rfl)
    ⟨nofun, nofun⟩ (.inr empty) nofun (V.cancelAll hp p)

theorem disableEp (p : I W s) : I W (s.disableEp i) := by
  have off := V.shut (s := (s.maskEpIrq i).dmaStopIfBusy i) (r := .shutdown) parked_dmaStopIfBusy
    (V.dmaStopIfBusy (V.maskEpIrq p))
  unfold State.disableEp
  dsimp only
  split
  · exact V.modDev (fun _ => rfl) (V.withdrawTx (V.setRxpend off))
  · exact V.withdrawTx (V.setRxpend off)

theorem freezeEp (hm : s.moving i = false ∨ (s.ep i).queue = []) (p : I (insert i W) s) : I W (s.freezeEp i) := by
  have forgot : I (insert i W) (s.forgetEp0 i) := by
    unfold State.forgetEp0
    split
    · exact V.modDev (fun _ => rfl) p
    · exact p
  refine V.settle (.of_work (fun ⟨_, _, _, fill, tx⟩ => ⟨rfl, fun _ => rfl, fun _ => ⟨nofun, nofun, nofun⟩, fill, tx⟩) rfl)
    ⟨nofun, nofun⟩ ?_ nofun (V.withdrawTx (V.inert (fun _ => rfl) (fun _ => rfl) forgot))
  simpa [State.moving] using hm

theorem stallEp (p : I W s) : I W (s.stallEp i) := by
  cases hm : s.moving i with
  | true =>
    rw [State.stallEp_moving hm, ← State.freezeEp_setEpState .idle]
    have stopped : I W ((s.dmaStopIfBusy i).dropInflight i) :=
      V.dropInflight parked_dmaStopIfBusy (V.dmaStopIfBusy p)
    refine V.freezeEp (.inl (State.not_moving_of_state (x := .idle) (by simp) nofun nofun)) (V.finish ?_ ?_ stopped)
    · unfold State.moving; rw [State.dropInflight_ep]; exact (State.dmaStopIfBusy_moving s i).trans hm
    · left; rw [State.dropInflight_ep, State.dmaStopIfBusy_ep_same]
  | false =>
    by_cases hoff : (s.ep i).state = .disabled ∨ (s.ep i).state = .stalled
    · rw [State.stallEp_off hoff]; exact p
    · obtain ⟨hd, hs⟩ := not_or.mp hoff
      rw [State.stallEp_still hm hd hs]
      exact V.freezeEp (.inl hm) (V.wait p)

theorem resumeEp (p : I W s) : I W (s.resumeEp i) := by
  unfold State.resumeEp
  split
  · next hs =>
    refine V.start (by simp) (V.settle (.of_work ?_ rfl) ⟨nofun, nofun⟩
      (.inl (State.not_moving_of_state hs nofun nofun)) (fun _ => .inl (Set.mem_insert i W)) (V.wait (V.wait p)))
    exact fun ⟨_, _, _, fill, tx⟩ => ⟨rfl, nofun, fun _ => ⟨nofun, nofun, nofun⟩, fill, tx⟩
  · exact p

theorem haltEp (p : I W s) : I W (s.haltEp i) := by
  unfold State.haltEp
  split
  · exact p
  · dsimp only
    split
    · next hs =>
      refine V.touch (.of_work ?_ rfl) rfl (V.stallEp p)
      rintro ⟨st, -, ep0, fill, tx⟩
      exact ⟨st, fun _ => by simpa [hs] using st, ep0, fill, tx⟩
    · exact V.stallEp p

theorem programEp {d : EpDesc} (hm : s.moving i = false) (p : I W s) : I (insert i W) (s.programEp i d) := by
  rw [State.programEp_eq]
  refine V.unmaskEpIrq (V.setRxpend (V.settle (.of_work ?_ rfl) ⟨nofun, nofun⟩ (.inl hm)
    (fun _ => .inl (Set.mem_insert i W)) (V.wait (V.wait p))))
  exact fun ⟨_, _, _, fill, tx⟩ => ⟨rfl, nofun, fun _ => ⟨nofun, nofun, nofun⟩, fill, tx⟩

/-! ### EP0 -/

theorem setupEnd {p : SetupPacket} (q : I ∅ s) : I {0} (s.setupEnd p) := by
  have drained : I (insert 0 ∅) (((s.modDev fun d => { d with ctrl := p }).ackSetup 0).drain 0 .ok) :=
    V.drain (.inr (.inl rfl)) (V.ackSetup (V.modDev (fun _ => rfl) q))
  rw [insert_empty_eq] at drained
  exact V.modDev (fun _ => rfl) (V.withdrawTx (V.inert (fun _ => rfl) (fun _ => rfl) drained))

theorem setupIdle {p : SetupPacket} (q : I ∅ s) : I ∅ (s.setupIdle p) := by
  have empty : ((s.setupEnd p).ep 0).queue = [] := by rw [State.setupEnd_ep_same]
  refine V.settle (.of_work ?_ rfl) ⟨nofun, nofun⟩ (.inr empty) (fun _ => .inr empty)
    (by rw [insert_empty_eq]; exact V.setupEnd q)
  rintro ⟨st, ha, -, fill, tx⟩
  refine ⟨?_, ?_, fun h => absurd rfl h, fill, tx⟩
  · simp [Endpoint.unstalled, st]
  · intro h
    simp only [Endpoint.unstalled] at h ⊢
    split at h
    · cases h
    · next hs => rw [if_neg hs]; exact ha h

/-- EP0 leaves `Idle` for a stage of its own (R230, R258). -/
theorem ep0Stage {x : EpState} (hx : x ≠ .idle ∧ x ≠ .stalled ∧ x ≠ .sending ∧ x ≠ .receiving)
    {f : Endpoint → Endpoint} (hf : ∀ e : Endpoint, (f e).state = x ∧ (f e).stalled = e.stalled ∧ (f e).halted = e.halted ∧
      (f e).work = e.work)
    (banks : (s.ep 0).consistent 0 → (f (s.ep 0)).fifo.fill = [] ∧
      ((f (s.ep 0)).ctl.txpktrdy = true → (f (s.ep 0)).fifo.tx ≠ []))
    (hs : (s.ep 0).state = .idle) (q : I {0} s) : I ∅ (s.modEp 0 f) := by
  obtain ⟨state, stalled, halted, work⟩ := hf (s.ep 0)
  obtain ⟨hi, hst, hse, hre⟩ := hx
  refine V.settle (.of_work (fun c => ?_) work) (by rw [state]; exact ⟨hse, hre⟩)
    (.inl (State.not_moving_of_state hs nofun nofun)) (fun h => absurd (state.symm.trans h) hi)
    (by rw [insert_empty_eq]; exact q)
  obtain ⟨st, ha, -, -⟩ := id c
  refine ⟨?_, by rw [halted, stalled]; exact ha, fun h => absurd rfl h, banks c⟩
  rw [state, stalled, st, hs]
  simp [hst]

theorem ep0DataOut (hs : (s.ep 0).state = .idle) (q : I ∅ s) : I ∅ (s.setEpState 0 .ep0DataOut) :=
  V.ep0Stage (x := .ep0DataOut) ⟨nofun, nofun, nofun, nofun⟩ (fun _ => ⟨rfl, rfl, rfl, rfl⟩)
    (fun ⟨_, _, _, fill, tx⟩ => ⟨fill, tx⟩) hs (V.mono (Set.empty_subset _) q)

/-- EP0 answers with an IN packet (R258). -/
theorem ep0Answer {x : EpState} (hx : x ≠ .idle ∧ x ≠ .stalled ∧ x ≠ .sending ∧ x ≠ .receiving) {bs : List Byte}
    (hs : (s.ep 0).state = .idle) (q : I {0} s) : I ∅ (((s.fifoWrite 0 bs).handTx 0).setEpState 0 x) := by
  have once : ((s.fifoWrite 0 bs).handTx 0).setEpState 0 x = s.modEp 0 fun e => { e with
      state := x
      ctl := { e.ctl with txpktrdy := true }
      fifo := { e.fifo with fill := [], tx := e.fifo.tx ++ [e.fifo.fill ++ bs] } } :=
    (congrArg (State.setEpState · 0 x) (State.modEp_modEp s 0 _ _)).trans (State.modEp_modEp s 0 _ _)
  rw [once]
  exact V.ep0Stage hx (fun _ => ⟨rfl, rfl, rfl, rfl⟩) (fun _ => ⟨rfl, fun _ => by simp⟩) hs q

theorem ep0Stall (hs : (s.ep 0).state = .idle) (q : I {0} s) : I ∅ s.ep0Stall := by
  unfold State.ep0Stall
  have still := State.not_moving_of_state hs nofun nofun
  rw [State.stallEp_still still (by rw [hs]; nofun) (by rw [hs]; nofun)]
  exact V.freezeEp (.inl still) (by rw [insert_empty_eq]; exact q)

/-- The final action leaves EP0 in a stage or stalled, or leaves the state alone (R258). -/
theorem ep0Finish {p : SetupPacket} {o : Ep0Outcome} (hs : (s.ep 0).state = .idle) (q : I {0} s) :
    (I ∅ (s.ep0Finish p o) ∧ ((s.ep0Finish p o).ep 0).state ≠ .idle) ∨ s.ep0Finish p o = s := by
  cases o with
  | success resp =>
    refine .inl ⟨V.ep0Answer (x := .ep0StatusIn) ⟨nofun, nofun, nofun, nofun⟩ hs q, ?_⟩
    rw [State.ep0Finish, State.setEpState_ep, if_pos rfl]
    nofun
  | address =>
    refine .inl ⟨V.ep0Answer (x := .ep0Address) ⟨nofun, nofun, nofun, nofun⟩ hs q, ?_⟩
    rw [State.ep0Finish, State.setEpState_ep, if_pos rfl]
    nofun
  | dispatched => exact .inr rfl
  | stall =>
    refine .inl ⟨V.ep0Stall hs q, ?_⟩
    rw [State.ep0Finish, State.ep0Stall, State.stallEp_state (by rw [hs]; nofun)]
    nofun

end OpsInvariant
end Sys2Proof.Machine
end

section
/-! SUPPORT. The walk through the requests on EP0 and the instructions: each keeps every `OpsInvariant`
(`OpsInvariant.exec`). -/

namespace Sys2Proof.Machine

/-! ### Outcomes -/

/-- Every next state of the outcome `o` has the property `P`. -/
def NextHas (P : State → Prop) (o : Host.Outcome State Fault Refusal) : Prop := ∀ t, o = .next t → P t

theorem NextHas.next {P : State → Prop} {t : State} (h : P t) : NextHas P (.next t) := by
  intro u e
  cases e
  exact h

theorem NextHas.fault {P : State → Prop} (f : Fault) : NextHas P (.fault f) := by intro _ e; cases e
theorem NextHas.refused {P : State → Prop} (r : Refusal) : NextHas P (.refused r) := by intro _ e; cases e

theorem resumeEp_ep0 {s : State} (i : EpIx) (hs : (s.ep 0).state = .idle) : (s.resumeEp i).ep 0 = s.ep 0 := by
  by_cases h0 : i = 0
  · subst h0
    unfold State.resumeEp
    rw [if_neg (by rw [hs]; nofun)]
  · exact (EpFrame.start i s).resumeEp.other 0 (Ne.symm h0)

theorem haltEp_ep0 {s : State} (i : EpIx) : (s.haltEp i).ep 0 = s.ep 0 := by
  by_cases h0 : i = 0
  · unfold State.haltEp
    rw [if_pos h0]
  · exact (EpFrame.start i s).haltEp.other 0 (Ne.symm h0)

namespace OpsInvariant

variable {I : Set EpIx → State → Prop} (V : OpsInvariant I) {W : Set EpIx} {i : EpIx} {s : State}

theorem guard {c : Prop} [Decidable c] {r : Result} {o : Host.Outcome State Fault Refusal} (V : OpsInvariant I)
    (p : I W s) (H : NextHas (I W) o) : NextHas (I W) (if c then .next (s.answer r) else o) := by
  split
  · exact .next (V.answer p)
  · exact H

theorem next {r : Result} (V : OpsInvariant I) (p : I W s) : NextHas (I W) (.next (s.answer r)) := .next (V.answer p)

/-! ### Requests on EP0 -/

/-- A request's rule keeps `I` and leaves EP0 alone while EP0 is `Idle`, its own queue perhaps waiting. -/
def Rule (I : Set EpIx → State → Prop) (rule : Option (List Byte) → State → State × Ep0Outcome) : Prop :=
  ∀ out s, (s.ep 0).state = .idle → I {0} s → I {0} (rule out s).1 ∧ (rule out s).1.ep 0 = s.ep 0

include V

theorem forward {out : Option (List Byte)} (p : I W s) : I W (s.forward out).1 ∧ (s.forward out).1.ep 0 = s.ep 0 := by
  unfold State.forward
  split
  · exact ⟨p, rfl⟩
  · exact ⟨V.callback p, rfl⟩

/-- A request that is forwarded if it fails a check `c`. -/
theorem forwardUnless (c : Prop) [Decidable c] (o : Ep0Outcome) {out : Option (List Byte)} (p : I W s) :
    I W (if c then (s, o) else s.forward out).1 ∧ (if c then (s, o) else s.forward out).1.ep 0 = s.ep 0 := by
  split
  · exact ⟨p, rfl⟩
  · exact V.forward p

/-- A request that is forwarded if it passes its checks, and stalls otherwise. -/
theorem forwardIf (c : Prop) [Decidable c] {out : Option (List Byte)} (p : I W s) :
    I W (if c then s.forward out else (s, .stall)).1 ∧
      (if c then s.forward out else (s, .stall)).1.ep 0 = s.ep 0 := by
  split
  · exact V.forward p
  · exact ⟨p, rfl⟩

omit V in
theorem rule_getStatus : Rule I reqGetStatus := by
  intro out s _ p
  have same : (reqGetStatus out s).1 = s := by
    unfold reqGetStatus
    dsimp only
    split_ifs
    · rfl
    · rfl
    · split <;> rfl
    · rfl
    · rfl
  rw [same]
  exact ⟨p, rfl⟩

theorem rule_clearFeature : Rule I reqClearFeature := by
  intro out s hs p
  unfold reqClearFeature
  dsimp only
  split
  · split
    · exact ⟨p, rfl⟩
    · exact ⟨V.resumeEp p, resumeEp_ep0 _ hs⟩
  · exact V.forwardUnless _ _ p

theorem rule_setFeature : Rule I reqSetFeature := by
  intro out s _ p
  unfold reqSetFeature
  dsimp only
  split
  · split
    · exact ⟨p, rfl⟩
    · exact ⟨V.haltEp p, haltEp_ep0 _⟩
  · exact V.forwardUnless _ _ p

theorem rule_setAddress : Rule I reqSetAddress := by
  intro out s _ p
  unfold reqSetAddress
  dsimp only
  split
  · have noted : I {0} (s.modDev fun d => { d with pendingAddr := s.dev.ctrl.value.extractLsb' 0 7 }) := V.modDev (fun _ => rfl) p
    exact ⟨noted, rfl⟩
  · exact ⟨p, rfl⟩

theorem rule_getDescriptor : Rule I reqGetDescriptor := fun _ _ _ p => V.forwardIf _ p
theorem rule_setDescriptor : Rule I reqSetDescriptor := fun _ _ _ p => V.forwardIf _ p
theorem rule_getConfiguration : Rule I reqGetConfiguration := fun _ _ _ p => V.forwardIf _ p
theorem rule_setConfiguration : Rule I reqSetConfiguration := fun _ _ _ p => V.forwardIf _ p
theorem rule_getInterface : Rule I reqGetInterface := fun _ _ _ p => V.forward p
theorem rule_setInterface : Rule I reqSetInterface := fun _ _ _ p => V.forward p
theorem rule_nonstandard : Rule I reqNonstandard := fun _ _ _ p => V.forward p
omit V in
theorem rule_synchFrame : Rule I reqSynchFrame := fun _ _ _ p => ⟨p, rfl⟩
omit V in
theorem rule_unknownStandard : Rule I reqUnknownStandard := fun _ _ _ p => ⟨p, rfl⟩

theorem rule_requestRule (p : SetupPacket) : Rule I (requestRule p) := by
  unfold requestRule
  split
  · exact V.rule_nonstandard
  · split
    · exact rule_getStatus
    · exact V.rule_clearFeature
    · exact V.rule_setFeature
    · exact V.rule_setAddress
    · exact V.rule_getDescriptor
    · exact V.rule_setDescriptor
    · exact V.rule_getConfiguration
    · exact V.rule_setConfiguration
    · exact V.rule_getInterface
    · exact V.rule_setInterface
    · exact rule_synchFrame
    · exact rule_unknownStandard

/-- Running a request on an `Idle` EP0 with nothing queued (R230). -/
theorem runRequest {rule : Option (List Byte) → State → State × Ep0Outcome} (hr : Rule I rule)
    {out : Option (List Byte)} (hs : (s.ep 0).state = .idle) (hq : (s.ep 0).queue = []) (p : I {0} s) :
    I ∅ (s.runRequest rule out) := by
  obtain ⟨ruled, ep0⟩ := hr out s hs p
  rcases V.ep0Finish (p := s.dev.ctrl) (o := (rule out s).2) (by rw [ep0, hs]) ruled with ⟨done, -⟩ | same
  · exact done
  · rw [State.runRequest, same]
    exact V.rested (by rw [ep0, hs]) (by rw [ep0, hq]) (by rw [insert_empty_eq]; exact ruled)

/-- Running the request of an OUT data stage, and then the requests queued meanwhile (R233). -/
theorem runRequest_startEp0 {rule : Option (List Byte) → State → State × Ep0Outcome} (hr : Rule I rule)
    {out : Option (List Byte)} (hs : (s.ep 0).state = .idle) (p : I {0} s) :
    I ∅ (s.runRequest rule out).startEp0 := by
  obtain ⟨ruled, ep0⟩ := hr out s hs p
  unfold State.startEp0
  rcases V.ep0Finish (p := s.dev.ctrl) (o := (rule out s).2) (by rw [ep0, hs]) ruled with ⟨done, stage⟩ | same
  · rw [State.runRequest, if_neg stage]
    exact done
  · have idle : ((s.runRequest rule out).ep 0).state = .idle := by rw [State.runRequest, same, ep0, hs]
    rw [if_pos idle]
    refine V.start idle ?_
    rw [State.runRequest, same, insert_empty_eq]
    exact ruled

theorem setupAccept {go : State → State} {p : SetupPacket}
    (hgo : ∀ v : State, (v.ep 0).state = .idle → (v.ep 0).queue = [] → I {0} v → I ∅ (go v)) (q : I ∅ s) :
    I ∅ (s.setupAccept p go) := by
  have ready : I ∅ (s.setupIdle p) := V.setupIdle q
  have waiting : I {0} (s.setupIdle p) := V.mono (Set.empty_subset _) ready
  have ep0 : (s.setupIdle p).ep 0 = ((s.setupEnd p).ep 0).unstalled .idle := State.modEp_ep_same _ _ _
  have idle : ((s.setupIdle p).ep 0).state = .idle := by rw [ep0]; rfl
  have empty : ((s.setupIdle p).ep 0).queue = [] := by rw [ep0, State.setupEnd_ep_same]; rfl
  rw [State.setupAccept_eq]
  split
  · split
    · exact V.ep0Stall idle waiting
    · exact V.ep0DataOut idle ready
  · exact hgo _ idle empty waiting

theorem receiveSetup {rule : Option (List Byte) → State → State × Ep0Outcome} (hr : Rule I rule) {p : SetupPacket}
    (q : I ∅ s) : NextHas (I ∅) (.next (s.receiveSetup p rule)) := by
  refine .next ?_
  unfold State.receiveSetup
  split
  · exact V.ackSetup (V.discardSetup q)
  · exact V.setupAccept (fun v hs hq p => V.runRequest hr hs hq p) (V.discardSetup q)

/-! ### The device state machine -/

theorem deviceResume (p : I ∅ s) : I ∅ s.deviceResume := V.clkgate (V.notify (V.modDev (fun _ => rfl) p))

theorem pollRwake (p : I W s) : I W s.pollRwake := by
  unfold State.pollRwake
  split
  · split
    · exact V.view p rfl
    · exact p
  · exact p

theorem spinRwake (k : Nat) {s : State} (p : I W s) : I W (spinRwake k s) := by
  induction k generalizing s with
  | zero => exact p
  | succ k ih =>
    unfold Machine.spinRwake
    split
    · exact ih (V.pollRwake p)
    · exact p

omit V in
theorem forEps {f : EpIx → State → State} (hf : ∀ i s, I W s → I W (f i s)) (is : List EpIx) {s : State}
    (p : I W s) : I W (s.forEps is f) := by
  induction is generalizing s with
  | nil => exact p
  | cons i rest ih => exact ih (hf i s p)

/-! ### The class driver's operations -/

theorem configureEndpoint {d : EpDesc} (p : I ∅ s) : NextHas (I ∅) (execConfigureEndpoint i d s) := by
  refine V.guard p ?_
  split
  · exact V.next p
  · next hb =>
    have still : s.moving i = false := by
      revert hb
      unfold State.inTransfer State.moving
      cases (s.ep i).state <;> simp
    have programmed : I (insert i ∅) (s.programEp i d) := V.programEp still p
    have idle : ((s.programEp i d).ep i).state = .idle := by
      unfold State.programEp
      simp
    exact V.guard p (V.guard p (V.next (V.start idle programmed)))

theorem disableEndpoint (p : I ∅ s) : NextHas (I ∅) (execDisableEndpoint i s) := V.guard p (V.next (V.disableEp p))

theorem allocateRequest (p : I ∅ s) : NextHas (I ∅) (execAllocateRequest s) := by
  unfold execAllocateRequest
  dsimp only
  split
  · next h =>
    simp only [Bool.and_eq_true, decide_eq_true_eq] at h
    exact .next (V.view (V.allocate h.2 p) rfl)
  · exact .next (V.view p rfl)

omit V in
theorem owner_of_not_engineOwns {h : Ref} (e : s.engineOwns h = false) : (s.req h).owner ≠ .engine := by
  unfold State.engineOwns at e
  rw [Bool.or_eq_false_iff, decide_eq_false_iff_not] at e
  exact e.1

theorem freeRequest {h : Ref} (p : I ∅ s) : NextHas (I ∅) (execFreeRequest i h s) := by
  refine V.guard p ?_
  split
  · exact .fault _
  · next he => exact V.next (V.free (owner_of_not_engineOwns (by simpa using he)) p)

theorem submitRequest {h : Ref} (p : I ∅ s) : NextHas (I ∅) (execSubmit i h s) := by
  unfold execSubmit
  dsimp only
  split
  · exact V.next p
  next hv =>
  split
  · exact V.next p
  next hr =>
  split
  · exact V.next p
  next ho =>
  split
  · exact V.next p
  next hd =>
  simp only [Bool.or_eq_true, Bool.not_eq_true', not_or, Bool.not_eq_false] at hv
  obtain ⟨notNull, exists_, callback, buffer⟩ := by simpa only [not_or, not_and, not_not] using hr
  obtain ⟨bound, enabled⟩ := not_or.mp hd
  have ha : s.accepts i h := ⟨hv.1, hv.2, notNull, by simpa using exists_, callback, buffer, by simpa using ho, bound,
    enabled⟩
  have queued := V.submit ha p
  split
  · next hs =>
    rw [if_pos hs] at queued
    exact V.next (V.start (by simpa using hs) (by rw [insert_empty_eq]; exact queued))
  · next hs =>
    rw [if_neg hs] at queued
    exact V.next queued

theorem cancelRequest {h : Ref} (p : I ∅ s) : NextHas (I ∅) (execCancel i h s) := by
  have cancelled := V.cancel (s := (s.maskEpIrq i).dmaStopIfBusy i) (r := .shutdown) parked_dmaStopIfBusy
    (V.dmaStopIfBusy (V.maskEpIrq p))
  refine V.guard p (V.next ?_)
  split
  · exact V.unmaskEpIrq cancelled
  · exact cancelled

theorem stall (p : I ∅ s) : NextHas (I ∅) (execStall i s) := V.guard p (V.next (V.stallEp p))

theorem resumeStall (p : I ∅ s) : NextHas (I ∅) (execResumeStall i s) := V.guard p (V.next (V.resumeEp p))

theorem reserveEp {d : Bool} {ty : EpType} (p : I ∅ s) : I ∅ (s.reserveEp i d ty) :=
  V.view (V.inert (i := i) (f := fun e => { e with reserved := true, dir := dirOfFlag d, type := ty })
    (fun _ => rfl) (fun _ => rfl) p) rfl

theorem allocateEndpoint {n : EpIx} {d : Bool} {ty : EpType} (p : I ∅ s) :
    NextHas (I ∅) (execAllocateEndpoint n d ty s) := by
  unfold execAllocateEndpoint
  split
  · split
    · exact .next (V.reserveEp p)
    · exact .next (V.view p rfl)
  · split
    · exact .next (V.reserveEp p)
    · exact .next (V.view p rfl)

theorem freeEndpoint (p : I ∅ s) : NextHas (I ∅) (execFreeEndpoint i s) :=
  V.guard p (V.next (V.inert (fun _ => rfl) (fun _ => rfl) (V.disableEp p)))

theorem wakeup (p : I ∅ s) : NextHas (I ∅) (execWakeup s) := by
  have resumed : I ∅ (if s.dev.state = .suspended then s.deviceResume else s) := by
    split
    · exact V.deviceResume p
    · exact p
  exact V.next (V.spinRwake _ (V.view resumed rfl))

theorem setPullup {b : Bool} (p : I ∅ s) : NextHas (I ∅) (execSetPullup b s) := by
  have pulled : I ∅ { s.modDev fun d => { d with pullup := b } with devCtl := { s.devCtl with pullup := b } } :=
    V.pullup (s := s) p
  refine V.next ?_
  split
  · exact V.modDev (fun _ => rfl) pulled
  · exact pulled

theorem bind {d : Ref} (p : I ∅ s) : NextHas (I ∅) (execBind d s) := V.guard p (V.guard p (V.next (V.modDev (fun _ => rfl) p)))

/-- What UNBIND does to EP0: its queue is cancelled, and unless it is disabled it leaves its transfer (R162). -/
theorem unbindEp0 (p : I ∅ s) :
    I ∅ (if (((s.maskEpIrq 0).cancelAll 0 .shutdown).ep 0).state ≠ .disabled
      then (((s.maskEpIrq 0).cancelAll 0 .shutdown).postCancel 0).unmaskEpIrq 0
      else (s.maskEpIrq 0).cancelAll 0 .shutdown) := by
  have masked : I ∅ (s.maskEpIrq 0) := V.maskEpIrq p
  have chan : (s.maskEpIrq 0).parked 0 := .inr (.inl rfl)
  split
  · exact V.unmaskEpIrq (V.cancel chan masked)
  · next hd =>
    have empty : (((s.maskEpIrq 0).drain 0 .shutdown).ep 0).queue = [] := by rw [State.drain_ep_same]
    have off : (((s.maskEpIrq 0).drain 0 .shutdown).ep 0).state = .disabled := by
      rw [State.cancelAll_ep_same] at hd
      rw [State.drain_ep_same]
      simpa using hd
    exact V.settle (.of_work (fun c => c) rfl) (by dsimp only; rw [off]; exact ⟨nofun, nofun⟩) (.inr empty)
      (fun _ => .inr empty) (V.drain chan masked)

theorem unbind (p : I ∅ s) : NextHas (I ∅) (execUnbind s) := by
  unfold execUnbind
  refine V.guard p ?_
  extract_lets s1 s2 s3
  have disabled : I ∅ s1 := forEps (fun _ _ p => V.disableEp p) _ p
  have cancelled : I ∅ s3 := V.unbindEp0 disabled
  exact V.next (V.modDev (fun _ => rfl) cancelled)

/-! ### The stimuli -/

omit V in
theorem atEp {f : State → State} (hf : I W (f s)) (p : I W s) : I W (s.atEp i f) := by
  unfold State.atEp
  split
  · exact hf
  · exact p

theorem atChan {f : State → State} (hf : I W (f s)) (p : I W s) : I W (s.atChan i f) := by
  unfold State.atChan
  split
  · exact V.setDmaPending hf
  · exact p

theorem busBusreset (p : I ∅ s) : NextHas (I ∅) (execBusBusreset s) :=
  .next (V.view (forEps (f := fun i s => s.modEp i Endpoint.dropSession) (fun _ _ p => V.dropSession p) s.epList p) rfl)

theorem busSetup {p : SetupPacket} (q : I ∅ s) : NextHas (I ∅) (execBusSetup i p s) :=
  .next (atEp (V.inert (fun _ => rfl) (fun _ => rfl) q) q)

theorem busRxpkt {bytes : List Byte} (p : I ∅ s) : NextHas (I ∅) (execBusRxpkt i bytes s) := by
  unfold execBusRxpkt
  split
  · exact .refused _
  · split
    · exact .next p
    · exact .next (atEp (V.inert (fun _ => rfl) (fun _ => rfl) p) p)

theorem busTxdone (p : I ∅ s) : NextHas (I ∅) (execBusTxdone i s) := by
  refine .next (atEp (V.modSta ?_) p)
  split
  · exact V.sendTx p
  · exact p

theorem busStallsent (p : I ∅ s) : NextHas (I ∅) (execBusStallsent i s) := .next (atEp (V.modSta p) p)

/-- A channel reports the end of its slice (R204). -/
theorem reportSlice {f : DmaChan → DmaChan} (hf : ∀ c, (f c).running = false ∧ (f c).ie = c.ie) (p : I W s) :
    I W (s.modChan i f) :=
  V.endSlice (hf _).1 (by rw [(hf _).2]; exact id) ⟨_, _, rfl⟩ p

theorem busDmaEob {rem : BitVec 16} (p : I ∅ s) : NextHas (I ∅) (execBusDmaEob i rem s) := by
  refine .next (V.atChan ?_ p)
  dsimp only
  split
  · exact V.reportSlice (fun _ => ⟨rfl, rfl⟩) (V.moveSlice p)
  · exact V.reportSlice (fun _ => ⟨rfl, rfl⟩) (V.scrambleSlice p)

theorem busDmaEoc (p : I ∅ s) : NextHas (I ∅) (execBusDmaEoc i s) :=
  .next (V.atChan (V.reportSlice (fun _ => ⟨rfl, rfl⟩) (V.moveSlice p)) p)

theorem busDmaErr (p : I ∅ s) : NextHas (I ∅) (execBusDmaErr i s) :=
  .next (V.atChan (V.reportSlice (fun _ => ⟨rfl, rfl⟩) (V.scrambleSlice p)) p)

/-! ### Every instruction -/

theorem exec (ins : Instr) (p : I ∅ s) : NextHas (I ∅) (exec ins s) := by
  cases ins with
  | configureEndpoint i d => exact V.configureEndpoint p
  | disableEndpoint i => exact V.disableEndpoint p
  | allocateRequest => exact V.allocateRequest p
  | freeRequest i h => exact V.freeRequest (i := i) p
  | submit i h => exact V.submitRequest p
  | cancel i h => exact V.cancelRequest (h := h) p
  | stall i => exact V.stall p
  | resumeStall i => exact V.resumeStall p
  | allocateEndpoint n b ty => exact V.allocateEndpoint p
  | freeEndpoint i => exact V.freeEndpoint p
  | getFrameNumber => exact .next (V.view p rfl)
  | wakeup => exact V.wakeup p
  | setSelfPowered b => exact V.next (V.modDev (fun _ => rfl) p)
  | setPullup b => exact V.setPullup p
  | bind d => exact V.bind p
  | unbind => exact V.unbind p
  | invalidCommand w => exact V.next p
  | busBusreset => exact V.busBusreset p
  | busSuspend => exact .next (V.view p rfl)
  | busResume => exact .next (V.view p rfl)
  | busSof f => exact .next (V.view p rfl)
  | busUpresume => exact .next (V.view p rfl)
  | busSetup i q => exact V.busSetup p
  | busRxpkt i bytes => exact V.busRxpkt p
  | busTxdone i => exact V.busTxdone p
  | busStallsent i => exact V.busStallsent p
  | busDmaEob c rem => exact V.busDmaEob p
  | busDmaEoc c => exact V.busDmaEoc p
  | busDmaErr c => exact V.busDmaErr p
  | busRwakeDone => exact .next (V.view p rfl)
  | setupGetStatus a => exact V.receiveSetup rule_getStatus p
  | setupClearFeature a => exact V.receiveSetup V.rule_clearFeature p
  | setupSetFeature a => exact V.receiveSetup V.rule_setFeature p
  | setupSetAddress a => exact V.receiveSetup V.rule_setAddress p
  | setupGetDescriptor a => exact V.receiveSetup V.rule_getDescriptor p
  | setupSetDescriptor a => exact V.receiveSetup V.rule_setDescriptor p
  | setupGetConfiguration a => exact V.receiveSetup V.rule_getConfiguration p
  | setupSetConfiguration a => exact V.receiveSetup V.rule_setConfiguration p
  | setupGetInterface a => exact V.receiveSetup V.rule_getInterface p
  | setupSetInterface a => exact V.receiveSetup V.rule_setInterface p
  | setupSynchFrame a => exact V.receiveSetup rule_synchFrame p
  | setupUnknownStandard code a => exact V.receiveSetup rule_unknownStandard p
  | setupNonstandardClass code a => exact V.receiveSetup V.rule_nonstandard p
  | setupNonstandardVendor code a => exact V.receiveSetup V.rule_nonstandard p
  | setupNonstandardReservedType code a => exact V.receiveSetup V.rule_nonstandard p

end OpsInvariant
end Sys2Proof.Machine
end

section
/-! SUPPORT. The walk through the handlers of a pass and the environment's actions, up to one step of the machine
(`StepInvariant.step`). -/

namespace Sys2Proof.Machine

/-- The source a pass handles next is the first that is still pending (R300). -/
theorem find?_of_dropWhile {α : Type} {p : α → Bool} {l later : List α} {b : α}
    (h : l.dropWhile (fun x => !p x) = b :: later) : l.find? p = some b := by
  induction l with
  | nil => cases h
  | cons a rest ih =>
    cases ha : p a with
    | true =>
      rw [List.dropWhile_cons_of_neg (by simp [ha])] at h
      cases h
      exact List.find?_cons_of_pos ha
    | false =>
      rw [List.dropWhile_cons_of_pos (by simp [ha])] at h
      rw [List.find?_cons_of_neg (by simp [ha])]
      exact ih h

@[simp] theorem State.countSlice_ep (s : State) (i j : EpIx) (h : Ref) (k : Len) :
    (s.countSlice i h k).ep j = s.ep j := by
  unfold State.countSlice
  dsimp only
  rw [State.modReq_ep]
  split <;> rfl

namespace OpsInvariant

variable {I : Set EpIx → State → Prop} (V : OpsInvariant I) {i : EpIx} {s : State}
include V

/-! ### Handlers and agents that use the operations' closure alone -/

theorem ep0DataOutPacket (hs : (s.ep 0).state = .ep0DataOut) (p : I ∅ s) : I ∅ s.ep0DataOutPacket := by
  unfold State.ep0DataOutPacket
  extract_lets c n r s1
  have stored : I ∅ s1 := V.releaseRx (V.modDev (fun _ => rfl) (V.fifoReadRx p))
  have state : (s1.ep 0).state = .ep0DataOut := by
    rw [← hs]
    simp [s1, r, State.fifoReadRx]
  clear_value s1
  split
  · have idle : I {0} (s1.setEpState 0 .idle) := by
      refine V.settle (.of_work ?_ rfl) ⟨nofun, nofun⟩ (.inl (State.not_moving_of_state state nofun nofun))
        (fun _ => .inl rfl) (V.mono (Set.empty_subset _) stored)
      rintro ⟨st, ha, -, fill, tx⟩
      exact ⟨by rw [st, state]; rfl, ha, fun h => absurd rfl h, fill, tx⟩
    exact V.runRequest_startEp0 (V.rule_requestRule _) (by simp) idle
  · exact stored

theorem setupReceived (p : I ∅ s) : I ∅ s.setupReceived := by
  unfold State.setupReceived
  dsimp only
  split
  · exact V.ackSetup (V.discardSetup p)
  · split
    · exact V.stallEp (V.ackSetup (V.discardSetup p))
    · exact V.setupAccept (fun v hs hq q => V.runRequest (V.rule_requestRule _) hs hq q) (V.fifoReadSetup p)

theorem stallSent (p : I ∅ s) : I ∅ (s.stallSent i) := by
  have cleared : I ∅ (s.modCtl i fun c => { c with forcestall := false }) :=
    V.inert (fun _ => rfl) (fun _ => rfl) p
  unfold State.stallSent
  split
  · exact p
  · dsimp only
    split
    · next hs =>
      exact V.completeAndStart ((State.dmaStopIfBusy_moving _ i).trans ((State.moving_iff _ i).mpr hs))
        OpsInvariant.parked_dmaStopIfBusy (V.dmaStopIfBusy cleared)
    · exact cleared

theorem setupStatus (p : I ∅ s) : I ∅ (s.setupStatus i) := by
  unfold State.setupStatus
  split
  · exact V.setupReceived p
  · exact V.ackSetup (V.discardSetup p)

theorem suspend (p : I ∅ s) : I ∅ s.suspend := by
  unfold State.suspend
  dsimp only
  split
  · exact V.view p rfl
  · have noted : I ∅ (State.modDev { s with intPending := { s.intPending with suspend := false } }
        fun d => { d with prevstate := d.state }) := V.modDev (fun _ => rfl) (V.view p rfl)
    exact V.view (V.clkgate (b := true) (V.notify (c := .onSuspend) noted)) rfl

theorem resume (p : I ∅ s) : I ∅ s.resume := by
  unfold State.resume
  dsimp only
  split
  · exact V.deviceResume (V.view p rfl)
  · exact V.view p rfl

theorem enterDispatch (p : I ∅ s) : I ∅ s.enterDispatch := by
  unfold State.enterDispatch
  split
  · exact p
  · exact V.view p rfl

theorem releaseOutcome {o : Host.Outcome State Fault Refusal} (H : NextHas (I ∅) o) :
    NextHas (I ∅) (releaseOutcome o) := by
  cases o with
  | next t => exact .next (V.release (H t rfl))
  | fault f => exact .fault f
  | refused r => exact .refused r

theorem runRecord {port : Port} {bytes : List Byte} {rest : List Input} (p : I ∅ s) :
    NextHas (I ∅) (runRecord port bytes rest s) := by
  unfold Machine.runRecord
  split
  · exact V.releaseOutcome (V.exec _ (V.view p rfl))
  · exact .refused _

theorem configureDevice (p : I ∅ s) : I ∅ s.configureDevice := by
  unfold State.configureDevice
  split
  · exact V.modDev (fun _ => rfl) p
  · exact p

theorem onSetupReturn {r : Result} (p : I ∅ s) : I ∅ (s.onSetupReturn r) := by
  unfold State.onSetupReturn
  split
  · exact V.stallEp p
  · split
    · exact V.configureDevice p
    · exact p

theorem returnCallback {r : Result} (p : I ∅ s) : I ∅ (returnCallback r s) := by
  unfold Machine.returnCallback
  split
  · exact V.release (V.onSetupReturn (V.view p rfl))
  · exact V.view p rfl
  · exact p

theorem setRequest {h : Ref} {buf : Word} {len : Len} {nullpkt : Bool} {cb : Ref} (p : I ∅ s) :
    NextHas (I ∅) (setRequest h buf len nullpkt cb s) := by
  unfold Machine.setRequest
  split
  · exact .fault _
  · next ho =>
    refine .next (V.setReq (fun hr => OpsInvariant.owner_of_not_engineOwns ?_) p)
    simpa [hr] using ho

theorem pokeBytes {a : Word} {bytes : List Byte} (p : I ∅ s) : I ∅ (pokeBytes a bytes s) := by
  induction bytes generalizing a s with
  | nil => exact p
  | cons b rest ih =>
    unfold Machine.pokeBytes
    split
    · exact ih (V.view p rfl)
    · exact ih (V.view p rfl)

theorem environmentStep (p : I ∅ s) : NextHas (I ∅) (environmentStep s) := by
  unfold Machine.environmentStep
  split
  · exact .next (V.enterDispatch p)
  · exact V.runRecord p
  · exact V.runRecord p
  · exact .next (V.enterDispatch (V.view p rfl))
  · exact .next (V.returnCallback (V.view p rfl))
  · exact V.setRequest (V.view p rfl)
  · exact .next (V.pokeBytes (V.view p rfl))

end OpsInvariant

namespace StepInvariant

variable {I : Set EpIx → State → Prop} (V : StepInvariant I) {i : EpIx} {s s₀ : State}
include V

/-! ### The handlers of one endpoint -/

theorem txDone (p : I ∅ s) : I ∅ (s.txDone i) := by
  unfold State.txDone
  split
  · next hs =>
    have moving : s.moving i = true := (State.moving_iff s i).mpr (.inl hs)
    split
    · have masked : I ∅ (s.modCtl i fun c => { c with txdoneIe := false }) :=
        V.inert (fun _ => rfl) (fun _ => rfl) p
      dsimp only
      split
      · exact masked
      · next h hp =>
        split
        · next hl =>
          obtain ⟨rest, hq⟩ := State.peek_some hp
          exact V.completeAndStart (by simpa [State.moving] using moving) (.inr (.inr ⟨h, rest, hq, hl⟩)) masked
        · exact masked
    · next hd => exact V.write (.inl ⟨hs, by simpa using hd⟩) p
  · next hs => exact V.write (.inr hs) p
  · next hs => exact V.applyAddress hs p
  all_goals exact p

theorem rxReady (p₀ : I ∅ s₀) (hie : (s₀.ep i).ctl.rxrdyIe = true) (hc : s.cfg = s₀.cfg) (p : I ∅ s) :
    I ∅ (s.rxReady i) := by
  unfold State.rxReady
  split
  · next hs => exact V.read p₀ hie hc hs p
  · split
    · split
      · next hs => exact V.ep0DataOutPacket hs p
      · exact V.releaseRx p
    · split
      · exact V.releaseRx p
      · exact V.holdRx p

theorem epInterrupt (p : I ∅ s) : I ∅ (s.epInterrupt i) := by
  unfold State.epInterrupt
  extract_lets bits s1 s2 s3
  have tx : I ∅ s1 := by
    unfold s1
    split
    · exact V.txDone (V.ackTxdone p)
    · exact p
  have fixed : s1.fixed = s.fixed := ifBit_fixed bits.txdone ((txDone_fixed i (s.ackTxdone i)).trans rfl)
  clear_value s1
  have rx : I ∅ s2 := by
    unfold s2
    split
    · next hb =>
      have hie : (s.ep i).ctl.rxrdyIe = true := by
        simp only [bits, Endpoint.enabledSta, Bool.and_eq_true] at hb
        exact hb.2
      exact V.rxReady p hie (congrArg Prod.fst fixed) tx
    · exact tx
  clear_value s2
  have stall : I ∅ s3 := by
    unfold s3
    split
    · exact V.stallSent (V.ackStallsent rx)
    · exact rx
  clear_value s3
  split
  · exact V.setupStatus stall
  · exact stall

/-! ### DMA completion -/

theorem dmaCheck {h : Ref} (hm : s.moving i = true) (hp : s.parked i) (p : I ∅ s) : I ∅ (s.dmaCheck i h) := by
  unfold State.dmaCheck State.eocIncomplete
  split
  · exact V.completeAndStart hm hp p
  · split
    · exact p
    · exact V.completeAndStart hm hp p

theorem dmaInterrupt (hie : (s.ep i).chan.ie = true) (p : I ∅ s) : I ∅ (s.dmaInterrupt i) := by
  unfold State.dmaInterrupt
  extract_lets d s1
  have cleared : I ∅ s1 := V.setDmaPending (V.endSlice rfl id ⟨_, _, rfl⟩ (V.scrambleSlice p))
  have idleChan : (s1.ep i).dmaBusy = false := by simp [s1]
  have cfg : s1.cfg = s.cfg := (EpFrame.start i s).scrambleSlice.cfg
  clear_value s1 d
  split
  · exact cleared
  next h hp =>
  split
  · exact cleared
  next hs =>
  have moving : s1.moving i = true := by
    rw [State.moving_iff]
    tauto
  have counted : ∀ k, k ≤ (s1.req h).inflight → I ∅ (s1.countSlice i h k) :=
    fun k hk => V.countSlice (.inl idleChan) hp moving hk cleared
  have moving' : ∀ k, (s1.countSlice i h k).moving i = true := fun k => by
    simpa [State.moving] using moving
  have check : ∀ k, k ≤ (s1.req h).inflight → I ∅ ((s1.countSlice i h k).dmaCheck i h) := fun k hk =>
    V.dmaCheck (moving' k) (.inl (by simpa using idleChan)) (counted k hk)
  extract_lets r s2
  split
  · next hb =>
    have part : (s1.req h).inflight - d.remcount ≤ (s1.req h).inflight := by
      have rem : d.remcount ≤ (s1.req h).inflight := hb.2
      bv_omega
    split
    · next hl =>
      refine V.dmaSlice p hie ?_ ?_ (moving' _) hl (counted _ part)
      · obtain ⟨rest, hq⟩ := State.peek_some hp
        exact ((EpFrame.start i s1).countSlice (by rw [hq]; simp) _).cfg.trans cfg
      · simpa [State.peek, s2] using hp
    · exact check _ part
  · split
    · exact check _ (BitVec.le_refl _)
    · exact V.completeAndStart moving (.inl idleChan) cleared

/-! ### Every handler and every step -/

theorem handle {b : Source} (hb : s.stillPending b = true) (p : I ∅ s) : I ∅ (s.handle b) := by
  cases b with
  | suspend => exact V.suspend p
  | sof => exact V.view p rfl
  | resume => exact V.resume p
  | busReset => exact V.busReset p
  | upResume => exact V.view p rfl
  | dma c =>
    simp only [State.stillPending, Bool.and_eq_true] at hb
    exact V.dmaInterrupt hb.2 p
  | ep i => exact V.epInterrupt p

theorem dispatchStep {rest : List Source} {below : List Ctx} (p : I ∅ s) : I ∅ (s.dispatchStep rest below) := by
  unfold State.dispatchStep
  split
  · unfold State.resample
    split <;> exact V.view p rfl
  · next b later hl =>
    exact V.handle (s := { s with stack := .dispatch later :: below })
      (List.find?_some (find?_of_dropWhile hl)) (V.view p rfl)

/-- Every step keeps a step invariant. -/
theorem step {t : State} (p : I ∅ s) (h : step s = .next t) : I ∅ t := by
  have kept : NextHas (I ∅) (machineStep s) := by
    unfold machineStep
    split
    · exact .next (V.view p rfl)
    · split
      · exact V.runRecord p
      · exact .next (V.release (V.dispatchStep p))
    · exact V.environmentStep p
    · exact V.environmentStep p
  exact kept t h

end StepInvariant
end Sys2Proof.Machine
end

section
/-! SUPPORT. The endpoints' records after a bus reset (R280): shut down, then disabled or, for EP0, at the default
descriptor. -/

namespace Sys2Proof.Machine

variable {s : State} {i : EpIx}

/-! ### Shutting an endpoint down -/

/-- An endpoint that a bus reset has shut down: masked, its queue and banks empty, its stall and its slice gone, with
`rx` left of the received bytes (R280). -/
def Endpoint.quelled (rx : List Byte) (e : Endpoint) : Endpoint :=
  { e with
    stalled := false
    halted := false
    txnullpkt := false
    rxpend := false
    queue := []
    irqEn := false
    dmaBusy := false
    ctl := ⟨e.ctl.enable, false, false, false, false, false, false, e.ctl.mps⟩
    chan := e.stoppedChan false
    fifo := { e.fifo with fill := [], tx := [], rx := rx } }

theorem State.maskEpIrq_stop_ep_same (s : State) (i : EpIx) :
    ∃ rx, ((s.maskEpIrq i).dmaStopIfBusy i).ep i = { s.ep i with
      irqEn := false
      dmaBusy := false
      ctl := ⟨(s.ep i).ctl.enable, (s.ep i).ctl.txpktrdy, (s.ep i).ctl.forcestall, false, false, false, false,
        (s.ep i).ctl.mps⟩
      chan := (s.ep i).stoppedChan false
      fifo := { (s.ep i).fifo with rx := rx } } := by
  refine ⟨(((s.maskEpIrq i).dmaStopIfBusy i).ep i).fifo.rx, ?_⟩
  conv_lhs => rw [State.dmaStopIfBusy_ep_same, State.maskEpIrq_ep, if_pos rfl]
  simp [Endpoint.stoppedChan]

theorem State.resetEp_ep_same (s : State) (i : EpIx) : ∃ rx, (s.resetEp i).ep i = (s.ep i).quelled rx := by
  obtain ⟨rx, stopped⟩ := State.maskEpIrq_stop_ep_same s i
  refine ⟨rx, ?_⟩
  unfold State.resetEp
  simp [State.cancelAll_ep_same, stopped, Endpoint.quelled]

/-! ### The same at every endpoint of a list -/

/-- What a procedure on one endpoint does to it, done to each endpoint of a list. -/
theorem State.forEps_ep {f : EpIx → State → State} {R : EpIx → Endpoint → Endpoint → Prop}
    (other : ∀ i s j, j ≠ i → (f i s).ep j = s.ep j) (same : ∀ i s, R i (s.ep i) ((f i s).ep i))
    {is : List EpIx} (nodup : is.Nodup) (s : State) (j : EpIx) :
    (j ∉ is → (s.forEps is f).ep j = s.ep j) ∧ (j ∈ is → R j (s.ep j) ((s.forEps is f).ep j)) := by
  induction is generalizing s with
  | nil => exact ⟨fun _ => rfl, by simp⟩
  | cons i rest ih =>
    obtain ⟨notIn, nodup⟩ := List.nodup_cons.mp nodup
    obtain ⟨out, within⟩ := ih nodup (f i s)
    have unfolded : (s.forEps (i :: rest) f).ep j = ((f i s).forEps rest f).ep j := rfl
    rw [unfolded]
    constructor
    · intro hj
      rw [List.mem_cons, not_or] at hj
      rw [out hj.2, other i s j hj.1]
    · intro hj
      by_cases hji : j = i
      · subst hji
        rw [out notIn]
        exact same j s
      · have moved := within ((List.mem_cons.mp hj).resolve_left hji)
        rwa [other i s j hji] at moved

theorem State.mem_epList (s : State) (i : EpIx) : i ∈ s.epList ↔ s.validEp i = true := by
  have all : i ∈ allIx := by revert i; decide
  simp [State.epList, State.validEp, all]

theorem State.epList_nodup (s : State) : s.epList.Nodup := List.Nodup.filter _ (by decide)

/-! ### The bus reset -/

/-- Every endpoint is shut down (R280). -/
def State.resetAll (s : State) : State := s.forEps s.epList fun i s => s.resetEp i

/-- Every endpoint but EP0 is disabled (R280). -/
def State.disableOthers (s : State) : State :=
  s.forEps (s.epList.filter fun i => decide (i ≠ 0)) fun i s => s.disableAfterReset i

/-- The interrupt is acknowledged and the class driver told (R280). -/
def State.noteBusReset (s : State) : State :=
  { s with intPending := { s.intPending with busreset := false } }.notify .onDisconnect

theorem State.busReset_eq (s : State) :
    s.busReset = s.noteBusReset.resetAll.disableOthers.defaultEp0.defaultDevice := rfl

theorem State.validEp_zero {s : State} (pos : 1 ≤ s.cfg.numEp) : s.validEp 0 = true := by
  simp only [State.validEp, decide_eq_true_eq]
  omega

theorem State.validEp_congr {s t : State} (h : t.cfg = s.cfg) (i : EpIx) : t.validEp i = s.validEp i := by
  unfold State.validEp
  rw [h]

theorem State.noteBusReset_ep (s : State) (j : EpIx) : s.noteBusReset.ep j = s.ep j := by
  unfold State.noteBusReset State.notify
  split <;> rfl

theorem State.noteBusReset_cfg (s : State) : s.noteBusReset.cfg = s.cfg := by
  unfold State.noteBusReset State.notify
  split <;> rfl

theorem State.resetAll_cfg (s : State) : s.resetAll.cfg = s.cfg :=
  congrArg Prod.fst (forEps_fixed resetEp_fixed s.epList s)

theorem State.disableOthers_cfg (s : State) : s.disableOthers.cfg = s.cfg :=
  congrArg Prod.fst (forEps_fixed (f := fun i s => s.disableAfterReset i) (fun _ _ => rfl) _ s)

theorem State.resetAll_ep (s : State) (j : EpIx) :
    (s.validEp j = false → s.resetAll.ep j = s.ep j) ∧
    (s.validEp j = true → ∃ rx, s.resetAll.ep j = (s.ep j).quelled rx) := by
  have reset := State.forEps_ep (f := fun i s => s.resetEp i) (R := fun _ e e' => ∃ rx, e' = e.quelled rx)
    (fun i s => (EpFrame.start i s).resetEp.other) (fun i s => s.resetEp_ep_same i) s.epList_nodup s j
  rw [State.mem_epList] at reset
  exact ⟨fun h => reset.1 (by simp [h]), reset.2⟩

theorem State.disableOthers_ep (s : State) (j : EpIx) :
    (j = 0 ∨ s.validEp j = false → s.disableOthers.ep j = s.ep j) ∧
    (j ≠ 0 → s.validEp j = true → s.disableOthers.ep j =
      { s.ep j with state := .disabled, bank := 0, ctl := { (s.ep j).ctl with enable := false } }) := by
  have off := State.forEps_ep (f := fun i s => s.disableAfterReset i)
    (R := fun _ e e' => e' = { e with state := .disabled, bank := 0, ctl := { e.ctl with enable := false } })
    (fun i s j hj => State.modEp_ep_other s i j _ hj) (fun i s => State.modEp_ep_same s i _)
    (List.Nodup.filter (fun i => decide (i ≠ 0)) s.epList_nodup) s j
  rw [List.mem_filter, State.mem_epList] at off
  exact ⟨fun h => off.1 (by rcases h with h | h <;> simp [h]), fun h0 hv => off.2 ⟨hv, by simpa using h0⟩⟩

/-- What a bus reset makes of an endpoint other than EP0. -/
def Endpoint.afterReset (rx : List Byte) (e : Endpoint) : Endpoint :=
  { e.quelled rx with
    state := .disabled
    bank := 0
    ctl := ⟨false, false, false, false, false, false, false, e.ctl.mps⟩ }

/-- What a bus reset makes of EP0: the default descriptor, `Idle` and unmasked (R280). -/
def Endpoint.defaultEp0 (cfg : Params) (rx : List Byte) (e : Endpoint) : Endpoint :=
  { e.quelled rx with
    dir := .bidir
    type := .control
    mps := cfg.ep0MaxPacket
    banks := cfg.epBanks.get 0
    bank := 0
    state := .idle
    irqEn := true
    ctl := ⟨true, false, false, true, true, true, true, cfg.ep0MaxPacket⟩ }

theorem State.defaultEp0_ep_other (s : State) (j : EpIx) (hj : j ≠ 0) : s.defaultEp0.ep j = s.ep j := by
  unfold State.defaultEp0
  rw [State.setEpState_ep, if_neg hj, State.unmaskEpIrq_eq, State.modEp_ep_other _ _ _ _ hj,
    State.modEp_ep_other _ _ _ _ hj]

@[simp] theorem State.defaultDevice_ep (s : State) (j : EpIx) : s.defaultDevice.ep j = s.ep j := rfl

theorem State.defaultEp0_ep_zero {e : Endpoint} {rx : List Byte} (h : s.ep 0 = e.quelled rx) :
    s.defaultEp0.ep 0 = e.defaultEp0 s.cfg rx := by
  unfold State.defaultEp0
  rw [State.setEpState_ep, if_pos rfl, State.unmaskEpIrq_eq, State.modEp_ep_same, State.modEp_ep_same, h]
  simp [Endpoint.unmasked, Endpoint.defaultEp0, Endpoint.quelled, State.hasDma, State.epBanks]

theorem State.busReset_ep_invalid (s : State) {j : EpIx} (h0 : j ≠ 0) (hv : s.validEp j = false) :
    s.busReset.ep j = s.ep j := by
  have hv₁ : s.noteBusReset.validEp j = false := (State.validEp_congr s.noteBusReset_cfg j).trans hv
  have hv₂ : s.noteBusReset.resetAll.validEp j = false := (State.validEp_congr (State.resetAll_cfg _) j).trans hv₁
  rw [State.busReset_eq, State.defaultDevice_ep, State.defaultEp0_ep_other _ j h0,
    (State.disableOthers_ep _ j).1 (.inr hv₂), (State.resetAll_ep _ j).1 hv₁, State.noteBusReset_ep]

theorem State.busReset_ep_valid (s : State) {j : EpIx} (h0 : j ≠ 0) (hv : s.validEp j = true) :
    ∃ rx, s.busReset.ep j = (s.ep j).afterReset rx := by
  have hv₁ : s.noteBusReset.validEp j = true := (State.validEp_congr s.noteBusReset_cfg j).trans hv
  have hv₂ : s.noteBusReset.resetAll.validEp j = true := (State.validEp_congr (State.resetAll_cfg _) j).trans hv₁
  obtain ⟨rx, reset⟩ := (State.resetAll_ep _ j).2 hv₁
  refine ⟨rx, ?_⟩
  rw [State.busReset_eq, State.defaultDevice_ep, State.defaultEp0_ep_other _ j h0,
    (State.disableOthers_ep _ j).2 h0 hv₂, reset, State.noteBusReset_ep]
  rfl

theorem State.busReset_ep_zero (s : State) (hv : s.validEp 0 = true) :
    ∃ rx, s.busReset.ep 0 = (s.ep 0).defaultEp0 s.cfg rx := by
  have hv₁ : s.noteBusReset.validEp 0 = true := (State.validEp_congr s.noteBusReset_cfg 0).trans hv
  have cfg : s.noteBusReset.resetAll.disableOthers.cfg = s.cfg := by
    rw [State.disableOthers_cfg, State.resetAll_cfg, State.noteBusReset_cfg]
  obtain ⟨rx, reset⟩ := (State.resetAll_ep _ 0).2 hv₁
  refine ⟨rx, ?_⟩
  have quelled : s.noteBusReset.resetAll.disableOthers.ep 0 = (s.ep 0).quelled rx := by
    rw [(State.disableOthers_ep _ 0).1 (.inl rfl), reset, State.noteBusReset_ep]
  rw [State.busReset_eq, State.defaultDevice_ep, State.defaultEp0_ep_zero quelled, cfg]

end Sys2Proof.Machine
end

section
/-! SUPPORT. A property closed under the small updates is an invariant of every step (`UpdateClosed.stepInvariant`); making
and destroying request records (R126, R127); and ownership, which is such a property (O55). -/

namespace Sys2Proof.Machine

/-! ### Properties closed under the small updates -/

namespace UpdateClosed

variable {P : State → Prop} (U : UpdateClosed P)
include U

/-- A property closed under the small updates is an invariant of the operations if SUBMIT's, ALLOCATE_REQUEST's and
FREE_REQUEST's writes of the requests keep it and the two mirrored bits of DEV_CTL do. -/
theorem opsInvariant
    (submit : ∀ {s i h}, s.accepts i h → P s → P ((s.modReq h submitted).enqueue i h))
    (allocate : ∀ {s : State}, s.nextReq ≠ nullRef → P s →
      P { s with reqs := (s.nextReq, Request.fresh) :: s.reqs, nextReq := s.nextReq + 1 })
    (free : ∀ {s : State} {h}, (s.req h).owner ≠ .engine → P s →
      P { s with reqs := s.reqs.filter fun p => decide (p.1 ≠ h) })
    (pullup : ∀ {s : State} {b}, P s →
      P { s with dev := { s.dev with pullup := b }, devCtl := { s.devCtl with pullup := b } })
    (clkgate : ∀ {s : State} {b}, P s →
      P { s with dev := { s.dev with clkGated := b }, devCtl := { s.devCtl with clkgate := b } }) :
    OpsInvariant fun _ => P where
  view p h := U.view p h
  mono _ p := p
  touch q _ p := U.modEp q.queue q.rxpend p
  settle q _ _ _ p := U.modEp q.queue q.rxpend p
  setRxpend p := U.setRxpend p
  start _ p := U.startTransfer p
  finish _ _ p := U.setEpState (U.complete p)
  drain _ p := U.drain p
  dropInflight _ p := U.dropInflight p
  submit := submit
  allocate := allocate
  free := free
  setReq _ p := U.modReq (fun _ => rfl) p
  pullup := pullup
  clkgate := clkgate

/-- It is an invariant of every step if besides applying a new address and a bus reset keep it. -/
theorem stepInvariant (ops : OpsInvariant fun _ => P) (applyAddress : ∀ {s : State}, P s → P s.applyAddress)
    (busReset : ∀ {s : State}, P s → P s.busReset) : StepInvariant fun _ => P where
  toOpsInvariant := ops
  applyAddress _ p := applyAddress p
  write _ p := U.writeProcess p
  read _ _ _ _ p := U.readPacket p
  countSlice _ _ _ _ p := U.countSlice p
  dmaSlice _ _ _ _ _ _ p := U.dmaSlice p
  busReset := busReset

theorem noteBusReset {s : State} (p : P s) : P s.noteBusReset := by
  unfold State.noteBusReset State.notify
  split
  · exact U.view p rfl
  · exact U.view p rfl

/-- A bus reset keeps it up to the writes of the Device record. -/
theorem busResetEps {s : State} (p : P s) : P s.noteBusReset.resetAll.disableOthers.defaultEp0 := by
  have reset : P s.noteBusReset.resetAll := forEps (fun _ _ => U.resetEp) _ (U.noteBusReset p)
  have disabled : P s.noteBusReset.resetAll.disableOthers :=
    forEps (f := fun i s => s.disableAfterReset i) (fun _ _ p => U.modEp rfl rfl p) _ reset
  exact U.setEpState (U.unmaskEpIrq (U.modEp rfl rfl disabled))

end UpdateClosed

/-! ### Applying the address, restated -/

/-- The pending address is written, to the register and to its mirror (R262). -/
def State.withAddress (s : State) : State :=
  { s with
    devAddr := ⟨s.dev.pendingAddr, decide (s.dev.pendingAddr ≠ 0)⟩
    dev := { s.dev with
      addr := s.dev.pendingAddr, state := if s.dev.pendingAddr ≠ 0 then .address else .default } }

theorem State.applyAddress_eq (s : State) :
    s.applyAddress = (s.withAddress.setEpState 0 .idle).startTransfer 0 := by
  unfold State.applyAddress
  extract_lets p d s1 s2
  split
  · next hq => exact (State.startTransfer_nil (by simpa using hq)).symm
  · rfl

/-! ### Making and destroying records -/

/-- The record table with a fresh record under the next handle (R126). -/
def State.withNewReq (s : State) : State :=
  { s with reqs := (s.nextReq, Request.fresh) :: s.reqs, nextReq := s.nextReq + 1 }

/-- The record table without the record of a handle (R127). -/
def State.withoutReq (s : State) (h : Ref) : State := { s with reqs := s.reqs.filter fun p => decide (p.1 ≠ h) }

theorem State.withNewReq_req (s : State) (k : Ref) :
    s.withNewReq.req k = if k = s.nextReq then Request.fresh else s.req k := by
  unfold State.req State.withNewReq
  by_cases hk : k = s.nextReq
  · simp [hk]
  · simp [hk, List.lookup_cons, beq_false_of_ne hk]

theorem State.withNewReq_hasReq (s : State) (k : Ref) :
    s.withNewReq.hasReq k = (decide (k = s.nextReq) || s.hasReq k) := by
  unfold State.hasReq State.withNewReq
  by_cases hk : k = s.nextReq
  · simp [hk]
  · simp [hk, List.lookup_cons, beq_false_of_ne hk]

theorem lookup_filter_ne (h k : Ref) (l : List (Ref × Request)) :
    (l.filter fun p => decide (p.1 ≠ h)).lookup k = if k = h then none else l.lookup k := by
  induction l with
  | nil => simp
  | cons p rest ih =>
    obtain ⟨a, q⟩ := p
    by_cases ha : a = h
    · subst ha
      rw [List.filter_cons_of_neg (by simp), ih]
      by_cases hk : k = a
      · simp [hk]
      · simp [hk, List.lookup_cons, beq_false_of_ne hk]
    · rw [List.filter_cons_of_pos (by simpa using ha), List.lookup_cons, List.lookup_cons, ih]
      by_cases hk : k = a
      · subst hk; simp [ha]
      · simp [beq_false_of_ne hk]

theorem State.withoutReq_req (s : State) (h k : Ref) :
    (s.withoutReq h).req k = if k = h then Request.fresh else s.req k := by
  unfold State.req State.withoutReq
  rw [lookup_filter_ne]
  split <;> rfl

theorem State.withoutReq_hasReq (s : State) (h k : Ref) :
    (s.withoutReq h).hasReq k = (decide (k ≠ h) && s.hasReq k) := by
  unfold State.hasReq State.withoutReq
  rw [lookup_filter_ne]
  by_cases hk : k = h <;> simp [hk]

/-! ### Ownership (O55) -/

variable {s t : State} {i : EpIx} {h : Ref}

/-- Ownership speaks of the queues, the handles and the owners alone. -/
theorem State.ownership.congr (o : s.ownership) (queue : ∀ j, (t.ep j).queue = (s.ep j).queue)
    (handles : t.reqs.map Prod.fst = s.reqs.map Prod.fst) (nextReq : t.nextReq = s.nextReq)
    (owner : ∀ k, (t.req k).owner = (s.req k).owner) : t.ownership where
  distinct := by rw [handles]; exact o.distinct
  issued k hk := by rw [nextReq]; exact o.issued k (by rwa [← State.hasReq_congr handles])
  queued j k hk := by
    rw [State.hasReq_congr handles, owner]
    exact o.queued j k (by rwa [← queue])
  once j := by rw [queue]; exact o.once j
  apart j j' k hj hk := by rw [queue] at hk ⊢; exact o.apart j j' k hj hk
  onQueue k hk := by
    obtain ⟨j, hj⟩ := o.onQueue k (by rwa [← owner])
    exact ⟨j, by rwa [queue]⟩

/-- A completed head is on no queue any more and the class driver's (R171). -/
theorem State.ownership.complete (o : s.ownership) (i : EpIx) (r : Result) : (s.complete i r).ownership := by
  cases hq : (s.ep i).queue with
  | nil => rw [State.complete_nil s i r hq]; exact o
  | cons h rest =>
    have queue : ∀ j, ((s.complete i r).ep j).queue = if j = i then rest else (s.ep j).queue := by
      intro j
      by_cases hj : j = i
      · subst hj; rw [State.complete_ep_same, hq, if_pos rfl]; rfl
      · rw [State.complete_ep_other _ _ _ _ hj, if_neg hj]
    have hr : s.hasReq h = true := (o.queued i h (by simp [hq])).1
    have owner : ∀ k, ((s.complete i r).req k).owner = if k = h then .driver else (s.req k).owner := by
      intro k
      rw [State.complete_cons s i r hq, State.callback_req, State.modReq_req]
      by_cases hk : k = h <;> simp [hk, hr]
    have frame := (EpFrame.start i s).complete r
    have notRest : h ∉ rest := (List.nodup_cons.mp (hq ▸ o.once i)).1
    have old : ∀ j k, k ∈ ((s.complete i r).ep j).queue → k ∈ (s.ep j).queue ∧ k ≠ h := by
      intro j k hk
      rw [queue] at hk
      by_cases hj : j = i
      · subst hj
        rw [if_pos rfl] at hk
        exact ⟨by rw [hq]; exact List.mem_cons_of_mem h hk, fun e => notRest (e ▸ hk)⟩
      · rw [if_neg hj] at hk
        exact ⟨hk, fun e => o.apart j i k hj hk (by rw [e, hq]; simp)⟩
    refine ⟨by rw [frame.handles]; exact o.distinct, fun k hk => ?_, fun j k hk => ?_, fun j => ?_, fun j j' k hj hk hk' => ?_,
      fun k hk => ?_⟩
    · rw [frame.nextReq]
      exact o.issued k (by rwa [← State.complete_hasReq s i r])
    · obtain ⟨mem, ne⟩ := old j k hk
      rw [State.complete_hasReq, owner, if_neg ne]
      exact o.queued j k mem
    · rw [queue]
      split
      · exact (List.nodup_cons.mp (hq ▸ o.once i)).2
      · exact o.once j
    · exact o.apart j j' k hj (old j k hk).1 (old j' k hk').1
    · rw [owner] at hk
      split at hk
      · cases hk
      · next ne =>
        obtain ⟨j, hj⟩ := o.onQueue k hk
        refine ⟨j, ?_⟩
        rw [queue]
        split
        · next hji =>
          subst hji
          rw [hq] at hj
          exact (List.mem_cons.mp hj).resolve_left ne
        · exact hj

theorem updateClosed_ownership : UpdateClosed State.ownership where
  view o e := o.congr (fun j => congrArg _ (State.ep_of_view e j)) (by rw [State.reqs_of_view e])
    (State.nextReq_of_view e) (fun k => congrArg _ (State.req_of_view e k))
  modEp {s i f} queue _ o := o.congr (fun j => by
      by_cases hj : j = i
      · subst hj; rw [State.modEp_ep_same, queue]
      · rw [State.modEp_ep_other _ _ _ _ hj]) rfl rfl fun _ => rfl
  modReq {s h f} owner o := o.congr (fun _ => rfl) (State.modReq_handles s h f) rfl fun k => by
    rw [State.modReq_req]
    split
    · next e => rw [owner, e.1]
    · rfl
  setRxpend {s i b} o := o.congr (fun j => by rw [State.setRxpend_ep]; split <;> simp [*]) rfl rfl fun _ => rfl
  complete o := o.complete _ _

/-- SUBMIT takes a request that is on no queue (R130). -/
theorem State.ownership.submit (o : s.ownership) (ha : s.accepts i h) :
    ((s.modReq h submitted).enqueue i h).ownership := by
  have driver : (s.req h).owner ≠ .engine := OpsInvariant.owner_of_not_engineOwns ha.owner
  have free : ∀ j, h ∉ (s.ep j).queue := fun j hj => driver (o.queued j h hj).2
  have queue : ∀ j, (((s.modReq h submitted).enqueue i h).ep j).queue =
      if j = i then (s.ep i).queue ++ [h] else (s.ep j).queue := by
    intro j
    rw [State.enqueue_ep]
    split <;> rfl
  have hasReq : ∀ k, ((s.modReq h submitted).enqueue i h).hasReq k = s.hasReq k := fun k => State.modReq_hasReq s h k _
  have owner : ∀ k, (((s.modReq h submitted).enqueue i h).req k).owner = if k = h then .engine else (s.req k).owner := by
    intro k
    have req : ((s.modReq h submitted).enqueue i h).req k = _ := State.modReq_req s h k submitted
    rw [req]
    by_cases hk : k = h <;> simp [hk, ha.exists_, submitted]
  have new : ∀ j k, k ∈ (((s.modReq h submitted).enqueue i h).ep j).queue → k ∈ (s.ep j).queue ∨ (j = i ∧ k = h) := by
    intro j k hk
    rw [queue] at hk
    split at hk
    · next hj =>
      subst hj
      simpa using hk
    · exact .inl hk
  refine ⟨?_, fun k hk => o.issued k (by rwa [← hasReq]), fun j k hk => ?_, fun j => ?_, fun j j' k hj hk hk' => ?_,
    fun k hk => ?_⟩
  · exact (State.modReq_handles s h submitted).symm ▸ o.distinct
  · rw [hasReq, owner]
    rcases new j k hk with old | ⟨-, rfl⟩
    · rw [if_neg fun e => free j (by rwa [← e])]
      exact o.queued j k old
    · exact ⟨ha.exists_, if_pos rfl⟩
  · rw [queue]
    split
    · exact List.nodup_append.mpr ⟨o.once i, by simp, fun a ha b hb e => free i (by
      rw [List.mem_singleton] at hb
      rwa [← hb, ← e])⟩
    · exact o.once j
  · rcases new j k hk with old | ⟨rfl, rfl⟩
    · rcases new j' k hk' with old' | ⟨rfl, rfl⟩
      · exact o.apart j j' k hj old old'
      · exact free j old
    · rcases new j' k hk' with old' | ⟨rfl, -⟩
      · exact free j' old'
      · exact hj rfl
  · rw [owner] at hk
    by_cases hkh : k = h
    · exact ⟨i, by rw [queue, if_pos rfl, hkh]; simp⟩
    · rw [if_neg hkh] at hk
      obtain ⟨j, hj⟩ := o.onQueue k hk
      refine ⟨j, ?_⟩
      rw [queue]
      split
      · next hji => subst hji; exact List.mem_append_left _ hj
      · exact hj

/-- The next handle names no record (R126). -/
theorem State.ownership.nextReq_new (o : s.ownership) (hn : s.nextReq ≠ nullRef) : s.hasReq s.nextReq = false := by
  cases hr : s.hasReq s.nextReq with
  | false => rfl
  | true => exact absurd ((o.issued _ hr).2.resolve_left hn) (BitVec.lt_irrefl _)

/-- Making a record leaves every request as it reads. -/
theorem State.ownership.withNewReq_req (o : s.ownership) (hn : s.nextReq ≠ nullRef) (k : Ref) :
    s.withNewReq.req k = s.req k := by
  rw [State.withNewReq_req]
  split
  · next hk => rw [hk, State.req_of_not_hasReq s _ (o.nextReq_new hn)]
  · rfl

theorem State.ownership.allocate (o : s.ownership) (hn : s.nextReq ≠ nullRef) : s.withNewReq.ownership := by
  have new := o.nextReq_new hn
  refine ⟨?_, fun k hk => ?_, fun j k hk => ?_, o.once, o.apart, fun k hk => ?_⟩
  · refine List.nodup_cons.mpr ⟨fun mem => ?_, o.distinct⟩
    rw [(State.hasReq_iff s s.nextReq).mpr mem] at new
    cases new
  · rw [State.withNewReq_hasReq, Bool.or_eq_true, decide_eq_true_eq] at hk
    show k ≠ nullRef ∧ (s.nextReq + 1 = nullRef ∨ k < s.nextReq + 1)
    unfold nullRef at *
    rcases hk with rfl | hk
    · exact ⟨hn, by bv_omega⟩
    · obtain ⟨notNull, below⟩ := o.issued k hk
      exact ⟨notNull, by unfold nullRef at below; bv_omega⟩
  · obtain ⟨hr, owner⟩ := o.queued j k hk
    rw [o.withNewReq_req hn, State.withNewReq_hasReq]
    exact ⟨by simp [hr], owner⟩
  · rw [o.withNewReq_req hn] at hk
    exact o.onQueue k hk

/-- Destroying a record of the class driver leaves every owner as it reads. -/
theorem State.withoutReq_owner (hd : (s.req h).owner ≠ .engine) (k : Ref) :
    ((s.withoutReq h).req k).owner = (s.req k).owner := by
  rw [State.withoutReq_req]
  split
  · next hk =>
    subst hk
    cases ho : (s.req k).owner with
    | driver => rfl
    | engine => exact absurd ho hd
  · rfl

theorem State.ownership.free (o : s.ownership) (hd : (s.req h).owner ≠ .engine) : (s.withoutReq h).ownership := by
  refine ⟨?_, fun k hk => ?_, fun j k hk => ?_, o.once, o.apart, fun k hk => ?_⟩
  · exact o.distinct.sublist (List.filter_sublist.map Prod.fst)
  · rw [State.withoutReq_hasReq, Bool.and_eq_true] at hk
    exact o.issued k hk.2
  · obtain ⟨hr, owner⟩ := o.queued j k hk
    rw [State.withoutReq_owner hd, State.withoutReq_hasReq]
    have other : k ≠ h := fun e => hd (e ▸ owner)
    exact ⟨by simp [hr, other], owner⟩
  · rw [State.withoutReq_owner hd] at hk
    exact o.onQueue k hk

theorem opsInvariant_ownership : OpsInvariant fun _ => State.ownership :=
  updateClosed_ownership.opsInvariant (fun ha o => o.submit ha) (fun hn o => o.allocate hn) (fun hd o => o.free hd)
    (fun o => o.congr (fun _ => rfl) rfl rfl fun _ => rfl) (fun o => o.congr (fun _ => rfl) rfl rfl fun _ => rfl)

theorem State.ownership.applyAddress (o : s.ownership) : s.applyAddress.ownership := by
  have addressed : s.withAddress.ownership := o.congr (fun _ => rfl) rfl rfl fun _ => rfl
  rw [State.applyAddress_eq]
  exact updateClosed_ownership.startTransfer (updateClosed_ownership.setEpState addressed)

theorem State.ownership.defaultDevice (o : s.ownership) : s.defaultDevice.ownership :=
  o.congr (fun _ => rfl) rfl rfl fun _ => rfl

theorem State.ownership.busReset (o : s.ownership) : s.busReset.ownership := by
  rw [State.busReset_eq]
  exact (updateClosed_ownership.busResetEps o).defaultDevice

theorem stepInvariant_ownership : StepInvariant fun _ => State.ownership :=
  updateClosed_ownership.stepInvariant opsInvariant_ownership (fun o => o.applyAddress) fun o => o.busReset

/-- Settles O55: ownership is closed under the small updates (`updateClosed_ownership`). -/
theorem ownershipIsKept : Obligations.OwnershipIsKept := fun _ _ o h => stepInvariant_ownership.step o h

end Sys2Proof.Machine
end

section
/-! SUPPORT. The copies of one fact stay equal (O54): the mirrors are closed under the small updates, and the few
procedures that write a mirrored field write its copy too. -/

namespace Sys2Proof.Machine

variable {s t : State} {i : EpIx}

/-- The mirrors speak of these fields alone. -/
theorem State.mirrored.congr (m : s.mirrored) (cfg : t.cfg = s.cfg) (rxpend : ∀ j, (t.ep j).rxpend = (s.ep j).rxpend)
    (dev : t.dev.mirrors = s.dev.mirrors) (devAddr : t.devAddr = s.devAddr) (pullup : t.devCtl.pullup = s.devCtl.pullup)
    (clkgate : t.devCtl.clkgate = s.devCtl.clkgate) (intEnable : t.intEnable = s.intEnable) : t.mirrored := by
  simp only [Device.mirrors, Prod.mk.injEq] at dev
  obtain ⟨addr, rxpending, rwake, devPullup, clkGated⟩ := dev
  have list : t.epList = s.epList := by
    unfold State.epList
    rw [cfg]
  unfold State.mirrored at *
  rw [list, addr, rxpending, rwake, devPullup, clkGated, devAddr, pullup, clkgate, intEnable, cfg]
  simpa only [rxpend] using m

theorem State.mirrored.setRxpend (m : s.mirrored) (i : EpIx) (b : Bool) : (s.setRxpend i b).mirrored := by
  obtain ⟨-, faddr, faddrEn, pullup, clkgate, intEnable, rwake⟩ := m
  exact ⟨rfl, faddr, faddrEn, pullup, clkgate, intEnable, rwake⟩

theorem State.mirrored.complete (m : s.mirrored) (i : EpIx) (r : Result) : (s.complete i r).mirrored := by
  have frame := (EpFrame.start i s).complete r
  refine m.congr frame.cfg (fun j => ?_) (by rw [State.complete_dev]) frame.devAddr (by rw [frame.devCtl])
    (by rw [frame.devCtl]) frame.intEnable
  by_cases hj : j = i
  · subst hj; rw [State.complete_ep_same]
  · rw [State.complete_ep_other _ _ _ _ hj]

theorem updateClosed_mirrored : UpdateClosed State.mirrored where
  view {s t} m e := m.congr (State.cfg_of_view e) (fun j => congrArg _ (State.ep_of_view e j))
    (congrArg (·.2.2.2.2.2.2.1) e) (congrArg (·.2.2.2.2.1) e) (congrArg (·.2.2.2.2.2.2.2.1) e)
    (congrArg (·.2.2.2.2.2.2.2.2) e) (congrArg (·.2.2.2.2.2.1) e)
  modEp {s i f} _ rxpend m := m.congr rfl (fun j => by
      by_cases hj : j = i
      · subst hj; rw [State.modEp_ep_same, rxpend]
      · rw [State.modEp_ep_other _ _ _ _ hj]) rfl rfl rfl rfl rfl
  modReq _ m := m.congr rfl (fun _ => rfl) rfl rfl rfl rfl rfl
  setRxpend m := m.setRxpend _ _
  complete m := m.complete _ _

theorem opsInvariant_mirrored : OpsInvariant fun _ => State.mirrored :=
  updateClosed_mirrored.opsInvariant
    (fun {s i h} _ m => m.congr rfl (fun j => by
      rw [State.enqueue_ep]
      split
      · next hj => subst hj; rfl
      · rfl) rfl rfl rfl rfl rfl)
    (fun _ m => m.congr rfl (fun _ => rfl) rfl rfl rfl rfl rfl)
    (fun _ m => m.congr rfl (fun _ => rfl) rfl rfl rfl rfl rfl)
    (fun ⟨rx, faddr, faddrEn, _, clkgate, intEnable, rwake⟩ => ⟨rx, faddr, faddrEn, rfl, clkgate, intEnable, rwake⟩)
    (fun ⟨rx, faddr, faddrEn, pullup, _, intEnable, rwake⟩ => ⟨rx, faddr, faddrEn, pullup, rfl, intEnable, rwake⟩)

theorem State.mirrored.applyAddress (m : s.mirrored) : s.applyAddress.mirrored := by
  have addressed : s.withAddress.mirrored := by
    obtain ⟨rx, -, -, pullup, clkgate, intEnable, rwake⟩ := m
    exact ⟨rx, rfl, rfl, pullup, clkgate, intEnable, rwake⟩
  rw [State.applyAddress_eq]
  exact updateClosed_mirrored.startTransfer (updateClosed_mirrored.setEpState addressed)

/-- After a bus reset no packet is held (R280). -/
theorem State.busReset_rxpend (s : State) {j : EpIx} (hv : s.validEp j = true) : (s.busReset.ep j).rxpend = false := by
  by_cases h0 : j = 0
  · subst h0
    obtain ⟨rx, e⟩ := s.busReset_ep_zero hv
    rw [e]
    rfl
  · obtain ⟨rx, e⟩ := s.busReset_ep_valid h0 hv
    rw [e]
    rfl

theorem State.mirrored.busReset (m : s.mirrored) : s.busReset.mirrored := by
  obtain ⟨-, -, -, pullup, -, -, -⟩ := updateClosed_mirrored.busResetEps m
  have none : (s.busReset.epList.any fun k => (s.busReset.ep k).rxpend) = false := by
    rw [List.any_eq_false]
    intro k hk
    rw [State.mem_epList, State.validEp_congr (congrArg Prod.fst (busReset_fixed s))] at hk
    rw [State.busReset_rxpend s hk]
    decide
  rw [State.busReset_eq] at none ⊢
  exact ⟨none.symm, rfl, rfl, pullup, rfl, rfl, rfl⟩

theorem stepInvariant_mirrored : StepInvariant fun _ => State.mirrored :=
  updateClosed_mirrored.stepInvariant opsInvariant_mirrored (fun m => m.applyAddress) fun m => m.busReset

/-- Settles O54: the mirrors are closed under the small updates (`updateClosed_mirrored`), and SET_PULLUP, suspend and
resume, the new address and the bus reset write both copies. -/
theorem mirrorsStayEqual : Obligations.MirrorsStayEqual := fun _ _ _ m h => stepInvariant_mirrored.step m h

end Sys2Proof.Machine
end

section
/-! SUPPORT. Where `DEV_ADDR` is written (O58): no small update and no operation writes it, so of the handlers only
the bus reset's and, at the TX-done of EP0's status packet, EP0's do. -/

namespace Sys2Proof.Machine

variable {s t : State} {i : EpIx}

/-- `DEV_ADDR` holds the value `a`. -/
def State.addressIs (a : DevAddr) (s : State) : Prop := s.devAddr = a

theorem updateClosed_addressIs (a : DevAddr) : UpdateClosed (State.addressIs a) where
  view {s t} p e := (show t.devAddr = s.devAddr from congrArg (·.2.2.2.2.1) e).trans p
  modEp _ _ p := p
  modReq _ p := p
  setRxpend p := p
  complete p := ((EpFrame.start _ _).complete _).devAddr.trans p

theorem opsInvariant_addressIs (a : DevAddr) : OpsInvariant fun _ => State.addressIs a :=
  (updateClosed_addressIs a).opsInvariant (fun _ p => p) (fun _ p => p) (fun _ p => p) (fun p => p) (fun p => p)

theorem txDone_devAddr (hs : (s.ep i).state ≠ .ep0Address) : (s.txDone i).devAddr = s.devAddr := by
  have U := updateClosed_addressIs s.devAddr
  unfold State.txDone
  split
  · split
    · dsimp only
      split
      · rfl
      · split
        · exact (((EpFrame.start i s).modCtl _).completeAndStart .ok).devAddr
        · rfl
    · exact U.writeProcess rfl
  · exact U.writeProcess rfl
  · next h => exact absurd h hs
  all_goals rfl

theorem applyAddress_devAddr (s : State) :
    s.applyAddress.devAddr = ⟨s.dev.pendingAddr, decide (s.dev.pendingAddr ≠ 0)⟩ := by
  rw [State.applyAddress_eq]
  exact (EpFrame.start 0 (s.withAddress.setEpState 0 .idle)).startTransfer.devAddr

theorem rxReady_devAddr (s : State) (i : EpIx) : (s.rxReady i).devAddr = s.devAddr := by
  unfold State.rxReady
  split
  · exact (EpFrame.start i s).readPacket.devAddr
  · split
    · split
      · next hs => exact (opsInvariant_addressIs s.devAddr).ep0DataOutPacket hs rfl
      · rfl
    · split
      · rfl
      · exact (EpFrame.start i s).holdRx.devAddr

/-- An endpoint's interrupt writes `DEV_ADDR` only at the TX-done of the status packet that carries a new address. -/
theorem epInterrupt_devAddr (s : State) (i : EpIx) (h : (s.epInterrupt i).devAddr ≠ s.devAddr) :
    (s.ep i).state = .ep0Address ∧ (s.ep i).enabledSta.txdone = true ∧
      (s.epInterrupt i).devAddr = ⟨s.dev.pendingAddr, decide (s.dev.pendingAddr ≠ 0)⟩ := by
  have later : (s.epInterrupt i).devAddr =
      (if (s.ep i).enabledSta.txdone then (s.ackTxdone i).txDone i else s).devAddr := by
    unfold State.epInterrupt
    extract_lets bits s1 s2 s3
    have V := opsInvariant_addressIs s1.devAddr
    have rx : State.addressIs s1.devAddr s2 := by
      unfold s2
      split
      · exact rxReady_devAddr s1 i
      · rfl
    have stall : State.addressIs s1.devAddr s3 := by
      unfold s3
      split
      · exact V.stallSent (V.ackStallsent (W := ∅) rx)
      · exact rx
    split
    · exact V.setupStatus stall
    · exact stall
  rw [later] at h ⊢
  split at h
  · next hb =>
    have state : (s.ep i).state = .ep0Address := by
      by_contra hs
      exact h ((txDone_devAddr (by simpa using hs)).trans rfl)
    refine ⟨state, hb, ?_⟩
    have applied : (s.ackTxdone i).txDone i = (s.ackTxdone i).applyAddress := by
      unfold State.txDone
      simp [state]
    rw [if_pos hb, applied, applyAddress_devAddr]
    rfl
  · exact absurd rfl h

theorem busReset_devAddr (s : State) : s.busReset.devAddr = ⟨0, false⟩ := rfl

/-- Only the bus reset's and an endpoint's handler write `DEV_ADDR`. -/
theorem handle_devAddr {b : Source} (h : (s.handle b).devAddr ≠ s.devAddr) :
    b = .busReset ∨ ∃ i, b = .ep i := by
  have V := opsInvariant_addressIs s.devAddr
  cases b with
  | suspend => exact absurd (V.suspend rfl) h
  | sof => exact absurd rfl h
  | resume => exact absurd (V.resume rfl) h
  | busReset => exact .inl rfl
  | upResume => exact absurd rfl h
  | dma c => exact absurd (EpFrame.start c s).dmaInterrupt.devAddr h
  | ep i => exact .inr ⟨i, rfl⟩

/-- Settles O58: no instruction writes the address (`opsInvariant_addressIs`), and a step that does is a pass of the
dispatcher at one of the two handlers. -/
theorem addressChangesOnlyWhenApplied : Obligations.AddressChangesOnlyWhenApplied := by
  intro s t consistent
  have V := opsInvariant_addressIs s.devAddr
  refine ⟨fun ins h => V.exec ins (s := s) rfl t h, fun hstep changed => ?_⟩
  change machineStep s = .next t at hstep
  unfold machineStep at hstep
  split at hstep
  · cases hstep
    exact absurd rfl changed
  · next rest below hstack =>
    split at hstep
    · exact absurd (V.runRecord (s := s) rfl t hstep) changed
    · refine ⟨rest, below, hstack, ?_⟩
      cases hstep
      change (s.dispatchStep rest below).devAddr ≠ s.devAddr at changed
      show (_ ∧ _ ∧ (s.dispatchStep rest below).devAddr = _) ∨ (_ ∧ _ ∧ _ ∧ (s.dispatchStep rest below).devAddr = _)
      unfold State.dispatchStep at changed ⊢
      split at changed
      · refine absurd ?_ changed
        unfold State.resample
        split <;> rfl
      · next b later hl =>
        have found := find?_of_dropWhile hl
        rcases handle_devAddr changed with rfl | ⟨i, rfl⟩
        · exact .inl ⟨found, List.find?_some found, busReset_devAddr _⟩
        · obtain ⟨state, txdone, addr⟩ := epInterrupt_devAddr _ i changed
          have h0 : i = 0 := by
            by_contra h0
            obtain ⟨-, -, ep0, -⟩ := consistent.2 i
            exact (ep0 h0).2.2 state
          subst h0
          exact .inr ⟨found, state, txdone, addr⟩
  · exact absurd (V.environmentStep (s := s) rfl t hstep) changed
  · exact absurd (V.environmentStep (s := s) rfl t hstep) changed

end Sys2Proof.Machine
end

section
/-! SUPPORT. The flags of every endpoint agree with its state (O52). Moving data keeps the flags (`Kept`) and leaves the
endpoint settled; what is added here is that it leaves no transmit bank half filled. -/

namespace Sys2Proof.Machine

variable {s t : State} {i : EpIx}

/-! ### Transmit banks -/

/-- No transmit bank is half filled, and `TXPKTRDY` says that one was handed over (R42). -/
def Endpoint.banksOk (e : Endpoint) : Prop := e.fifo.fill = [] ∧ (e.ctl.txpktrdy = true → e.fifo.tx ≠ [])

theorem State.complete_banksOk (b : (s.ep i).banksOk) (r : Result) : ((s.complete i r).ep i).banksOk := by
  rw [State.complete_ep_same]
  exact b

theorem State.setEpState_banksOk (b : (s.ep i).banksOk) (x : EpState) : ((s.setEpState i x).ep i).banksOk := by
  rw [State.setEpState_ep, if_pos rfl]
  exact b

theorem State.dmaSlice_flags (s : State) (i : EpIx) : ((s.dmaSlice i).ep i).flags = (s.ep i).flags := by
  unfold State.dmaSlice
  split
  · rfl
  · dsimp only
    rw [State.modEp_ep_same, State.modReq_ep]
    split <;> rfl

theorem Endpoint.banksOk_of_flags {e e' : Endpoint} (h : e'.flags = e.flags) (b : e.banksOk) : e'.banksOk := by
  simp only [Endpoint.flags, Prod.mk.injEq] at h
  obtain ⟨-, -, -, fill, tx, rdy⟩ := h
  unfold Endpoint.banksOk
  rw [fill, tx, rdy]
  exact b

theorem State.dmaZlp_banksOk (s : State) (i : EpIx) (h : Ref) : ((s.dmaZlp i h).ep i).banksOk := by
  unfold State.dmaZlp Endpoint.banksOk
  simp

theorem State.sendPacket_banksOk (s : State) (i : EpIx) (h : Ref) : ((s.sendPacket i h).ep i).banksOk := by
  unfold State.sendPacket Endpoint.banksOk
  simp

theorem State.oweZlp_banksOk (b : (s.ep i).banksOk) (h : Ref) : ((s.oweZlp i h).ep i).banksOk := by
  unfold State.oweZlp
  split
  · rw [State.modEp_ep_same]; exact b
  · exact b

theorem State.readBank_flags (s : State) (i : EpIx) (h : Ref) : ((s.readBank i h).ep i).flags = (s.ep i).flags := by
  unfold State.readBank State.fifoReadRx Endpoint.flags
  simp

theorem dmaStartLoop_banksOk (k : Nat) {s : State} (b : (s.ep i).banksOk) : ((dmaStartLoop i k s).ep i).banksOk := by
  induction k generalizing s with
  | zero => exact b
  | succ k ih =>
    unfold dmaStartLoop
    split
    · exact b
    · split
      · split
        · exact State.dmaZlp_banksOk s i _
        · exact ih (State.setEpState_banksOk (State.complete_banksOk b .ok) .idle)
      · exact Endpoint.banksOk_of_flags (State.dmaSlice_flags _ i) (State.setEpState_banksOk b _)

theorem writeLoop_banksOk (k : Nat) {s : State} (b : (s.ep i).banksOk) : ((writeLoop i k s).ep i).banksOk := by
  induction k generalizing s with
  | zero => exact b
  | succ k ih =>
    unfold writeLoop
    split
    · exact State.setEpState_banksOk b _
    · next h _ =>
      dsimp only
      split
      · exact State.sendPacket_banksOk _ i h
      · exact ih (State.complete_banksOk (State.oweZlp_banksOk (s := s.countSent h) b h) .ok)

theorem readLoop_banksOk (k : Nat) {s : State} (b : (s.ep i).banksOk) : ((readLoop i k s).ep i).banksOk := by
  induction k generalizing s with
  | zero => exact b
  | succ k ih =>
    unfold readLoop
    split
    · exact State.setEpState_banksOk b _
    · next h _ =>
      split
      · exact ih (State.complete_banksOk b .ok)
      · dsimp only
        have held : (((s.setEpState i .receiving).setRxpend i false).modCtl i
            (fun c => { c with rxrdyIe := true }) |>.ep i).banksOk := by
          simpa [Endpoint.banksOk] using b
        split
        · have read := Endpoint.banksOk_of_flags (State.readBank_flags _ i h) held
          split
          · exact ih (State.setEpState_banksOk (State.complete_banksOk read .ok) .idle)
          · exact read
        · exact State.setEpState_banksOk b _

/-! ### Moving data -/

/-- Moving data keeps the agreement of an endpoint that is not stalled. -/
theorem Endpoint.consistent.settled {e e' : Endpoint} (c : e.consistent i) (hs : e.state ≠ .stalled) (kept : e.Kept e')
    (settled : e'.settled) (banks : e'.banksOk) : e'.consistent i := by
  obtain ⟨stalled, halted, -, -, -⟩ := c
  have states : e'.state = .sending ∨ e'.state = .receiving ∨ e'.state = .idle := by
    rcases settled with ⟨h | h, -⟩ | ⟨h, -⟩ <;> simp [h]
  have notStalled : e'.stalled = false := by rw [kept.stalled, stalled]; simpa using hs
  refine ⟨?_, fun h => ?_, fun _ => ?_, banks⟩
  · rw [notStalled]
    rcases states with h | h | h <;> rw [h] <;> rfl
  · rw [kept.stalled]
    exact halted (by rwa [kept.halted] at h)
  · rcases states with h | h | h <;> rw [h] <;> decide

theorem Endpoint.consistent.banksOk {e : Endpoint} (c : e.consistent i) : e.banksOk := c.2.2.2

theorem State.startTransfer_banksOk (b : (s.ep i).banksOk) : ((s.startTransfer i).ep i).banksOk := by
  unfold State.startTransfer State.dmaStart State.writeProcess State.readStart
  split
  · exact b
  · split
    · split
      · exact b
      · exact dmaStartLoop_banksOk _ b
    · split
      · exact writeLoop_banksOk _ b
      · exact readLoop_banksOk _ b

theorem startTransfer_consistent (hs : (s.ep i).state = .idle) (c : (s.ep i).consistent i) :
    ((s.startTransfer i).ep i).consistent i :=
  c.settled (by rw [hs]; nofun) (State.startTransfer_kept (Endpoint.Kept.refl _)) (State.startTransfer_settled s hs)
    (State.startTransfer_banksOk c.banksOk)

theorem writeProcess_consistent (hs : (s.ep i).state ≠ .stalled) (c : (s.ep i).consistent i) :
    ((s.writeProcess i).ep i).consistent i :=
  c.settled hs (writeLoop_kept _ (Endpoint.Kept.refl _)) (writeLoop_settled _ s (Nat.lt_succ_self _))
    (writeLoop_banksOk _ c.banksOk)

/-- An endpoint that is not stalled stays in agreement when it goes `Idle`. -/
theorem State.idle_consistent (hs : (s.ep i).state ≠ .stalled) (c : (s.ep i).consistent i) :
    ((s.setEpState i .idle).ep i).consistent i := by
  obtain ⟨stalled, halted, -, banks⟩ := c
  rw [State.setEpState_ep, if_pos rfl]
  exact ⟨by rw [stalled]; simpa using hs, halted, fun _ => ⟨nofun, nofun, nofun⟩, banks⟩

theorem State.complete_consistent (c : (s.ep i).consistent i) (r : Result) : ((s.complete i r).ep i).consistent i := by
  rw [State.complete_ep_same]
  exact c

theorem State.complete_state (s : State) (i : EpIx) (r : Result) : ((s.complete i r).ep i).state = (s.ep i).state := by
  rw [State.complete_ep_same]

theorem readPacket_consistent (hs : (s.ep i).state = .receiving) (c : (s.ep i).consistent i) :
    ((s.readPacket i).ep i).consistent i := by
  unfold State.readPacket
  split
  · exact c
  · next h _ =>
    have read : ((s.readBank i h).ep i).consistent i := Endpoint.consistent_of_flags (State.readBank_flags s i h) c
    have state : ((s.readBank i h).ep i).state = .receiving := (congrArg (·.1) (State.readBank_flags s i h)).trans hs
    dsimp only
    split
    · have idle := State.idle_consistent (by rw [State.complete_state, state]; nofun)
        (State.complete_consistent read .ok)
      exact idle.settled (by simp) (readLoop_kept _ (Endpoint.Kept.refl _))
        (readLoop_settled _ _ (Nat.lt_succ_self _)) (readLoop_banksOk _ idle.banksOk)
    · exact read

/-! ### The invariant -/

/-- An endpoint-wise property after an operation on endpoint `i`. -/
theorem forall_ep_of_other {C : EpIx → Endpoint → Prop} (c : ∀ j, C j (s.ep j)) (other : ∀ j, j ≠ i → t.ep j = s.ep j)
    (same : C i (t.ep i)) (j : EpIx) : C j (t.ep j) := by
  by_cases hj : j = i
  · rw [hj]; exact same
  · rw [other j hj]; exact c j

theorem State.endpointsConsistent.frame {hs : List Ref} (c : s.endpointsConsistent) (F : EpFrame i hs s t)
    (same : (t.ep i).consistent i) : t.endpointsConsistent :=
  ⟨by rw [F.cfg]; exact c.1, forall_ep_of_other c.2 F.other same⟩

theorem State.endpointsConsistent.congr (c : s.endpointsConsistent) (cfg : t.cfg = s.cfg) (ep : ∀ j, t.ep j = s.ep j) :
    t.endpointsConsistent :=
  ⟨by rw [cfg]; exact c.1, fun j => by rw [ep]; exact c.2 j⟩

theorem State.endpointsConsistent.modEp {f : Endpoint → Endpoint} (c : s.endpointsConsistent)
    (same : (s.ep i).consistent i → (f (s.ep i)).consistent i) : (s.modEp i f).endpointsConsistent :=
  ⟨c.1, forall_ep_of_other c.2 (fun j hj => State.modEp_ep_other s i j f hj)
    (by rw [State.modEp_ep_same]; exact same (c.2 i))⟩

theorem State.not_stalled_of_moving (hm : s.moving i = true) : (s.ep i).state ≠ .stalled := by
  rcases (State.moving_iff s i).mp hm with h | h <;> rw [h] <;> nofun

theorem State.endpointsConsistent.start (c : s.endpointsConsistent) (hs : (s.ep i).state = .idle) :
    (s.startTransfer i).endpointsConsistent :=
  c.frame (EpFrame.start i s).startTransfer (startTransfer_consistent hs (c.2 i))

theorem State.endpointsConsistent.applyAddress (c : s.endpointsConsistent) (hs : (s.ep i).state = .ep0Address) :
    s.applyAddress.endpointsConsistent := by
  have h0 : i = 0 := by
    by_contra h0
    obtain ⟨-, -, ep0, -⟩ := c.2 i
    exact (ep0 h0).2.2 hs
  subst h0
  have addressed : s.withAddress.endpointsConsistent := c.congr rfl fun _ => rfl
  have idle : (s.withAddress.setEpState 0 .idle).endpointsConsistent :=
    addressed.frame (EpFrame.setEpState (EpFrame.start 0 s.withAddress) .idle)
      (State.idle_consistent (by rw [show (s.withAddress.ep 0).state = _ from hs]; nofun) (addressed.2 0))
  rw [State.applyAddress_eq]
  exact idle.start (by simp)

theorem State.endpointsConsistent.busReset (c : s.endpointsConsistent) : s.busReset.endpointsConsistent := by
  have cfg : s.busReset.cfg = s.cfg := congrArg Prod.fst (busReset_fixed s)
  refine ⟨by rw [cfg]; exact c.1, fun j => ?_⟩
  by_cases h0 : j = 0
  · subst h0
    obtain ⟨rx, e⟩ := s.busReset_ep_zero (State.validEp_zero c.1)
    rw [e]
    exact ⟨rfl, nofun, fun h => absurd rfl h, rfl, nofun⟩
  · cases hv : s.validEp j with
    | false => rw [s.busReset_ep_invalid h0 hv]; exact c.2 j
    | true =>
      obtain ⟨rx, e⟩ := s.busReset_ep_valid h0 hv
      rw [e]
      exact ⟨rfl, nofun, fun _ => ⟨nofun, nofun, nofun⟩, rfl, nofun⟩

theorem opsInvariant_endpointsConsistent : OpsInvariant fun _ => State.endpointsConsistent where
  view c e := c.congr (State.cfg_of_view e) (State.ep_of_view e)
  mono _ c := c
  touch q _ c := c.modEp q.consistent
  settle q _ _ _ c := c.modEp q.consistent
  setRxpend c := c.frame ((EpFrame.start _ _).setRxpend _) (by rw [State.setRxpend_ep, if_pos rfl]; exact c.2 _)
  start hs c := c.start hs
  finish {_ s i r} hm _ c := c.frame (EpFrame.setEpState ((EpFrame.start i s).complete r) .idle)
    (State.idle_consistent (by rw [State.complete_state]; exact State.not_stalled_of_moving hm)
      (State.complete_consistent (c.2 i) r))
  drain {_ s i r} _ c := c.frame ((EpFrame.start i s).drain r) (by rw [State.drain_ep_same]; exact c.2 i)
  dropInflight {_ s i} _ c := c.frame (EpFrame.start i s).dropInflight (by rw [State.dropInflight_ep]; exact c.2 i)
  submit {s i h} _ c := State.endpointsConsistent.modEp (s := s.modReq h submitted) (c.congr rfl fun _ => rfl) fun c => c
  allocate _ c := c.congr rfl fun _ => rfl
  free _ c := c.congr rfl fun _ => rfl
  setReq _ c := c.congr rfl fun _ => rfl
  pullup c := c.congr rfl fun _ => rfl
  clkgate c := c.congr rfl fun _ => rfl

theorem stepInvariant_endpointsConsistent : StepInvariant fun _ => State.endpointsConsistent where
  toOpsInvariant := opsInvariant_endpointsConsistent
  applyAddress hs c := c.applyAddress hs
  write {s i} hs c := c.frame (EpFrame.start i s).writeProcess
    (writeProcess_consistent (by rcases hs with ⟨h, -⟩ | h <;> rw [h] <;> nofun) (c.2 i))
  read {_ s i} _ _ _ hs c := c.frame (EpFrame.start i s).readPacket (readPacket_consistent hs (c.2 i))
  countSlice {s i h k} _ _ _ _ c := by
    refine c.congr ?_ fun _ => State.countSlice_ep ..
    unfold State.countSlice
    dsimp only
    split <;> rfl
  dmaSlice {_ s i _} _ _ _ _ _ _ c := c.frame (EpFrame.start i s).dmaSlice
    (Endpoint.consistent_of_flags (State.dmaSlice_flags s i) (c.2 i))
  busReset c := c.busReset

/-- Settles O52: every update keeps the agreement of the endpoint it writes, and starting a queue leaves the endpoint
settled with its flags kept. -/
theorem endpointFlagsFollowTheState : Obligations.EndpointFlagsFollowTheState :=
  fun _ _ c h => stepInvariant_endpointsConsistent.step c h

end Sys2Proof.Machine
end

section
/-! SUPPORT. Queues follow the state (O53): an endpoint in a transfer has a head request and an `Idle` one has none, but
for the endpoints whose queue is about to be started. -/

namespace Sys2Proof.Machine

variable {s t : State} {i : EpIx} {W : Set EpIx}

/-- A head request in a transfer, none on an `Idle` endpoint (R26 (d), R174). -/
def Endpoint.queueFits (e : Endpoint) : Prop :=
  (e.state = .sending ∨ e.state = .receiving → e.queue ≠ []) ∧ (e.state = .idle → e.queue = [])

/-- Queues follow the state, but for the endpoints of `W`. -/
def State.queuesFit (W : Set EpIx) (s : State) : Prop :=
  1 ≤ s.cfg.numEp ∧ ∀ j, j ∉ W → (s.ep j).queueFits

theorem State.queuesFit_empty : s.queuesFit ∅ ↔ s.queuesConsistent :=
  and_congr_right fun _ => forall_congr' fun _ => ⟨fun h => h (Set.notMem_empty _), fun h _ => h⟩

/-! ### One endpoint -/

theorem Endpoint.settled.queueFits {e : Endpoint} (h : e.settled) : e.queueFits := by
  rcases h with ⟨moving, ne⟩ | ⟨idle, empty⟩
  · exact ⟨fun _ => ne, fun idle => by simp [idle] at moving⟩
  · exact ⟨fun moving => by simp [idle] at moving, fun _ => empty⟩

theorem Endpoint.queueFits.congr {e e' : Endpoint} (h : e.queueFits) (state : e'.state = e.state)
    (queue : e'.queue = e.queue) : e'.queueFits := by
  unfold Endpoint.queueFits
  rw [state, queue]
  exact h

theorem State.readPacket_queueFits (h : (s.ep i).queueFits) : ((s.readPacket i).ep i).queueFits := by
  unfold State.readPacket
  split
  · exact h
  · next r _ =>
    dsimp only
    split
    · exact (readLoop_settled _ _ (Nat.lt_succ_self _)).queueFits
    · obtain ⟨state, queue⟩ := State.readBank_ep (i := i) s r
      exact h.congr state queue

theorem State.dmaSlice_queueFits {r : Ref} (hp : s.peek i = some r) (h : (s.ep i).queueFits) :
    ((s.dmaSlice i).ep i).queueFits := by
  obtain ⟨state, queue⟩ := State.dmaSlice_ep s hp
  exact h.congr state queue

/-! ### All endpoints -/

theorem State.queuesFit.congr (c : s.queuesFit W) (cfg : t.cfg = s.cfg)
    (same : ∀ j, (t.ep j).state = (s.ep j).state ∧ (t.ep j).queue = (s.ep j).queue) : t.queuesFit W :=
  ⟨by rw [cfg]; exact c.1, fun j hj => (c.2 j hj).congr (same j).1 (same j).2⟩

/-- An operation on endpoint `i` has to be looked at there only, and not there if `i` is left suspended. -/
theorem State.queuesFit.frame {hs : List Ref} (c : s.queuesFit (insert i W)) (F : EpFrame i hs s t)
    (same : i ∉ W → (t.ep i).queueFits) : t.queuesFit W := by
  refine ⟨by rw [F.cfg]; exact c.1, fun j hj => ?_⟩
  by_cases hji : j = i
  · subst hji; exact same hj
  · rw [F.other j hji]
    exact c.2 j (by simp [hji, hj])

theorem State.queuesFit.mono {W' : Set EpIx} (c : s.queuesFit W) (h : W ⊆ W') : s.queuesFit W' :=
  ⟨c.1, fun j hj => c.2 j fun hw => hj (h hw)⟩

theorem State.queuesFit.wait (c : s.queuesFit W) : s.queuesFit (insert i W) := c.mono (Set.subset_insert i W)

/-- An operation that leaves `i` suspended. -/
theorem State.queuesFit.suspend {hs : List Ref} (c : s.queuesFit W) (F : EpFrame i hs s t) : t.queuesFit (insert i W) :=
  State.queuesFit.frame (c.wait.wait) F fun h => absurd (Set.mem_insert i W) h

theorem State.queuesFit.modEp {f : Endpoint → Endpoint} (c : s.queuesFit (insert i W))
    (same : i ∉ W → (f (s.ep i)).queueFits) : (s.modEp i f).queuesFit W := by
  refine ⟨c.1, fun j hj => ?_⟩
  by_cases hji : j = i
  · subst hji; rw [State.modEp_ep_same]; exact same hj
  · rw [State.modEp_ep_other _ _ _ _ hji]
    exact c.2 j (by simp [hji, hj])

theorem State.queuesFit.start (c : s.queuesFit (insert i W)) (hs : (s.ep i).state = .idle) :
    (s.startTransfer i).queuesFit W :=
  c.frame (EpFrame.start i s).startTransfer fun _ => (State.startTransfer_settled s hs).queueFits

theorem State.queuesFit.applyAddress (c : s.queuesFit W) : s.applyAddress.queuesFit W := by
  have addressed : s.withAddress.queuesFit W := c.congr rfl fun _ => ⟨rfl, rfl⟩
  rw [State.applyAddress_eq]
  exact (addressed.suspend ((EpFrame.start 0 _).setEpState .idle)).start (by simp)

theorem State.queuesFit.busReset (c : s.queuesFit ∅) : s.busReset.queuesFit ∅ := by
  have cfg : s.busReset.cfg = s.cfg := congrArg Prod.fst (busReset_fixed s)
  refine ⟨by rw [cfg]; exact c.1, fun j hj => ?_⟩
  by_cases h0 : j = 0
  · subst h0
    obtain ⟨rx, e⟩ := s.busReset_ep_zero (State.validEp_zero c.1)
    rw [e]
    exact Endpoint.settled.queueFits (.inr ⟨rfl, rfl⟩)
  · cases hv : s.validEp j with
    | false => rw [s.busReset_ep_invalid h0 hv]; exact c.2 j hj
    | true =>
      obtain ⟨rx, e⟩ := s.busReset_ep_valid h0 hv
      rw [e]
      exact ⟨nofun, nofun⟩

/-! ### The invariant -/

theorem opsInvariant_queuesFit : OpsInvariant State.queuesFit where
  view c e := c.congr (State.cfg_of_view e) fun j => by simp [State.ep_of_view e j]
  mono h c := c.mono h
  touch {_ s i f} q state c := State.queuesFit.modEp c.wait fun h => (c.2 i h).congr state q.queue
  settle q still _ idle c := c.modEp fun h =>
    ⟨fun moving => absurd moving (not_or.mpr still), fun hi => q.queue.trans ((idle hi).resolve_left h)⟩
  setRxpend {_ s i b} c := State.queuesFit.frame c.wait ((EpFrame.start i s).setRxpend b) fun h => by
    rw [State.setRxpend_ep, if_pos rfl]; exact (c.2 i h).congr rfl rfl
  start hs c := c.start hs
  finish {_ s i r} _ _ c := c.suspend (((EpFrame.start i s).complete r).setEpState .idle)
  drain {_ s i r} _ c := c.suspend ((EpFrame.start i s).drain r)
  dropInflight {_ s i} _ c := State.queuesFit.frame c.wait (EpFrame.start i s).dropInflight fun h => by
    rw [State.dropInflight_ep]; exact c.2 i h
  submit {s i h} _ c := by
    have enqueued : ∀ W, ((if (s.ep i).state = .idle then {i} else ∅) : Set EpIx) = W →
        ((s.modReq h submitted).enqueue i h).queuesFit W := by
      intro W hW
      refine State.queuesFit.modEp (s := s.modReq h submitted) ⟨c.1, fun j _ => c.2 j (Set.notMem_empty j)⟩ fun hi => ?_
      have busy : (s.ep i).state ≠ .idle := fun idle => hi (by rw [← hW, if_pos idle]; rfl)
      exact ⟨fun _ => by simp, fun idle => absurd idle busy⟩
    exact enqueued _ rfl
  allocate _ c := c.congr rfl fun _ => ⟨rfl, rfl⟩
  free _ c := c.congr rfl fun _ => ⟨rfl, rfl⟩
  setReq _ c := c.congr rfl fun _ => ⟨rfl, rfl⟩
  pullup c := c.congr rfl fun _ => ⟨rfl, rfl⟩
  clkgate c := c.congr rfl fun _ => ⟨rfl, rfl⟩

theorem stepInvariant_queuesFit : StepInvariant State.queuesFit where
  toOpsInvariant := opsInvariant_queuesFit
  applyAddress _ c := c.applyAddress
  write {s i} _ c := State.queuesFit.frame c.wait (EpFrame.start i s).writeProcess fun _ =>
    (writeLoop_settled _ s (Nat.lt_succ_self _)).queueFits
  read {_ s i} _ _ _ _ c := State.queuesFit.frame c.wait (EpFrame.start i s).readPacket fun h =>
    State.readPacket_queueFits (c.2 i h)
  countSlice {s i h k} _ hp _ _ c := State.queuesFit.frame c.wait
    ((EpFrame.start i s).countSlice ((EpFrame.start i s).peekMem hp) k) fun hi => by
      rw [State.countSlice_ep]; exact c.2 i hi
  dmaSlice {_ s i _} _ _ _ hp _ _ c := State.queuesFit.frame c.wait (EpFrame.start i s).dmaSlice fun h =>
    State.dmaSlice_queueFits hp (c.2 i h)
  busReset c := c.busReset

/-- Settles O53: starting a queue leaves its endpoint settled, and only endpoints about to be started are suspended. -/
theorem queuesFollowTheState : Obligations.QueuesFollowTheState := fun _ _ c h =>
  State.queuesFit_empty.mp (stepInvariant_queuesFit.step (State.queuesFit_empty.mpr c) h)

end Sys2Proof.Machine
end

section
/-! SUPPORT. The counts of requests (O56), endpoint by endpoint: what one endpoint, its queue and its channel have under
way (`State.accountedAt`), and what starting and moving data keep of it. While a loop completes requests one after
another the head may be counted on an endpoint in no transfer; `State.between` says what holds meanwhile. -/

namespace Sys2Proof.Machine

variable {s t : State} {i : EpIx} {h : Ref}

/-! ### One endpoint -/

/-- Nothing of the request is sent, received or in flight. -/
def Request.untouched (q : Request) : Prop := q.started = false ∧ q.inflight = 0 ∧ q.xfrd = 0

/-- The counts stay within the length. -/
def Request.counted (q : Request) : Prop := q.xfrd.toNat + q.inflight.toNat ≤ q.len.toNat

/-- The requests of one queue are counted, those behind the head are untouched, and the enables fit the endpoint. -/
structure State.countedAt (s : State) (i : EpIx) : Prop where
  counts : ∀ h, h ∈ (s.ep i).queue → (s.req h).counted
  tail : ∀ h, h ∈ (s.ep i).queue.tail → (s.req h).untouched
  dmaIe : (s.ep i).chan.ie = true → s.hasDma i = true
  rxIe : (s.ep i).ctl.rxrdyIe = true → s.hasDma i = false

/-- The part of `accounted` about one endpoint. -/
structure State.accountedAt (s : State) (i : EpIx) : Prop extends s.countedAt i where
  still : s.moving i = false → ∀ h, s.peek i = some h → (s.req h).untouched
  reading : (s.ep i).state = .receiving → s.hasDma i = false → ∀ h, s.peek i = some h → (s.req h).inflight = 0
  slice : (s.ep i).chan.running = true → s.hasDma i = true ∧ (s.ep i).dmaBusy = true ∧
    (s.ep i).chan.count ≠ 0 ∧ ∃ h, s.peek i = some h ∧ (s.ep i).chan.count = (s.req h).inflight ∧
      (s.ep i).chan.addr = bufAt (s.req h).buf (s.req h).xfrd

/-- What holds of an endpoint between two requests of a loop. -/
structure State.between (s : State) (i : EpIx) : Prop extends s.countedAt i where
  owned : s.ownership
  parked : (s.ep i).chan.running = false

/-- The head is untouched. -/
def State.rested (s : State) (i : EpIx) : Prop := ∀ h, s.peek i = some h → (s.req h).untouched

theorem Request.untouched_of_not_active {q : Request} (h : ¬ (q.started = true ∨ q.inflight ≠ 0 ∨ q.xfrd ≠ 0)) :
    q.untouched := by
  obtain ⟨st, fl, xf⟩ := by simpa only [not_or, not_not] using h
  exact ⟨by simpa using st, fl, xf⟩

theorem Request.untouched.not_active {q : Request} (u : q.untouched) :
    ¬ (q.started = true ∨ q.inflight ≠ 0 ∨ q.xfrd ≠ 0) := by
  obtain ⟨st, fl, xf⟩ := u
  simp [st, fl, xf]

theorem Request.untouched.counted {q : Request} (u : q.untouched) : q.counted := by
  obtain ⟨-, fl, xf⟩ := u
  simp [Request.counted, fl, xf]

theorem Request.counted.xfrd_le {q : Request} (c : q.counted) : q.xfrd.toNat ≤ q.len.toNat := by
  unfold Request.counted at c
  omega

/-- The next packet or slice stays within the length. -/
theorem Request.counted.next {q : Request} (c : q.counted) {n : Len} (hn : n ≤ q.len - q.xfrd) :
    q.xfrd.toNat + n.toNat ≤ q.len.toNat := by
  have := c.xfrd_le
  bv_omega

theorem lenMin_le_left (a b : Len) : lenMin a b ≤ a := by
  unfold lenMin
  split <;> bv_omega

theorem lenMin_le_right (a b : Len) : lenMin a b ≤ b := by
  unfold lenMin
  split <;> bv_omega

/-! ### The machine's property is that of every endpoint -/

theorem State.peek_eq (s : State) (i : EpIx) : s.peek i = (s.ep i).queue.head? := rfl

theorem State.accounted.at (a : s.accounted) (i : EpIx) : s.accountedAt i where
  counts h hh := a.counts h (a.owned.queued i h hh).2
  tail h hh := by
    refine Request.untouched_of_not_active fun active => ?_
    obtain ⟨head, -⟩ := a.flight i h (List.mem_of_mem_tail hh) active
    have once := a.owned.once i
    revert head hh once
    cases (s.ep i).queue with
    | nil => simp
    | cons a rest => grind
  dmaIe := a.dmaIe i
  rxIe := a.rxIe i
  still hm h hp := Request.untouched_of_not_active fun active => by
    have moving := (a.flight i h (List.mem_of_mem_head? hp) active).2
    rw [hm] at moving
    cases moving
  reading hs hd h hp := a.reading i h hs hd hp
  slice := a.slice i

theorem State.accounted_of_at (hasEp0 : 1 ≤ s.cfg.numEp) (capacity : s.cfg.dmaFifoCap ≠ 0) (owned : s.ownership)
    (each : ∀ i, s.accountedAt i) : s.accounted where
  hasEp0 := hasEp0
  capacity := capacity
  owned := owned
  counts h hh := by
    obtain ⟨i, hi⟩ := owned.onQueue h hh
    exact (each i).counts h hi
  flight i h hh active := by
    cases hq : (s.ep i).queue with
    | nil => rw [hq] at hh; cases hh
    | cons a rest =>
      have head : h = a := by
        refine (List.mem_cons.mp (hq ▸ hh)).resolve_right fun inRest => ?_
        exact ((each i).tail h (by rw [hq]; exact inRest)).not_active active
      subst head
      refine ⟨rfl, ?_⟩
      cases hm : s.moving i with
      | true => rfl
      | false => exact absurd active ((each i).still hm h (by rw [State.peek_eq, hq]; rfl)).not_active
  reading i h hs hd hp := (each i).reading hs hd h hp
  slice i := (each i).slice
  dmaIe i := (each i).dmaIe
  rxIe i := (each i).rxIe

/-- What `accountedAt` reads of an endpoint. -/
def Endpoint.account (e : Endpoint) := (e.state, e.queue, e.dmaBusy, e.chan, e.ctl.rxrdyIe)

theorem State.accountedAt.congr (a : s.accountedAt i) (cfg : t.cfg = s.cfg)
    (ep : (t.ep i).account = (s.ep i).account) (req : ∀ k, k ∈ (s.ep i).queue → t.req k = s.req k) :
    t.accountedAt i := by
  simp only [Endpoint.account, Prod.mk.injEq] at ep
  obtain ⟨state, queue, busy, chan, rxrdyIe⟩ := ep
  have dma : t.hasDma i = s.hasDma i := by unfold State.hasDma; rw [cfg]
  have peek : t.peek i = s.peek i := by rw [State.peek_eq, queue]; rfl
  have moving : t.moving i = s.moving i := by unfold State.moving; rw [state]
  have head : ∀ k, s.peek i = some k → t.req k = s.req k := fun k hk => req k (List.mem_of_mem_head? hk)
  refine ⟨⟨fun h hh => ?_, fun h hh => ?_, ?_, ?_⟩, fun hm h hp => ?_, fun hs hd h hp => ?_, fun run => ?_⟩
  · rw [queue] at hh; rw [req h hh]; exact a.counts h hh
  · rw [queue] at hh; rw [req h (List.mem_of_mem_tail hh)]; exact a.tail h hh
  · rw [chan, dma]; exact a.dmaIe
  · rw [rxrdyIe, dma]; exact a.rxIe
  · rw [peek] at hp; rw [head h hp]; exact a.still (moving ▸ hm) h hp
  · rw [peek] at hp; rw [head h hp]; exact a.reading (state ▸ hs) (dma ▸ hd) h hp
  · rw [chan] at run
    obtain ⟨d, b, c, h, hp, cnt, addr⟩ := a.slice run
    rw [dma, busy, chan, peek]
    exact ⟨d, b, c, h, hp, by rw [cnt, head h hp], by rw [addr, head h hp]⟩

/-- An operation on endpoint `i` and its requests has to be looked at there only. -/
theorem State.accounted.frame (a : s.accounted) (F : EpFrame i (s.ep i).queue s t) (owned : t.ownership)
    (same : t.accountedAt i) : t.accounted := by
  refine State.accounted_of_at (by rw [F.cfg]; exact a.hasEp0) (by rw [F.cfg]; exact a.capacity) owned fun j => ?_
  by_cases hj : j = i
  · subst hj; exact same
  · refine (a.at j).congr F.cfg (by rw [F.other j hj]) fun k hk => F.requests k fun hi => ?_
    exact a.owned.apart i j k (Ne.symm hj) hi hk

/-- An update that no queue, queued request or channel notices. -/
theorem State.accounted.congr (a : s.accounted) (cfg : t.cfg = s.cfg) (owned : t.ownership)
    (ep : ∀ j, (t.ep j).account = (s.ep j).account) (req : ∀ j k, k ∈ (s.ep j).queue → t.req k = s.req k) : t.accounted :=
  State.accounted_of_at (by rw [cfg]; exact a.hasEp0) (by rw [cfg]; exact a.capacity) owned
    fun j => (a.at j).congr cfg (ep j) (req j)

/-- An endpoint that is in no transfer, has no DMA, or whose channel is not busy has no slice under way. -/
theorem State.accountedAt.parked_of_still (a : s.accountedAt i) (hm : s.moving i = false) :
    (s.ep i).chan.running = false := by
  by_contra run
  obtain ⟨-, -, count, h, hp, eq, -⟩ := a.slice (by simpa using run)
  exact count (eq.trans (a.still hm h hp).2.1)

theorem State.accountedAt.parked_of_noDma (a : s.accountedAt i) (hd : s.hasDma i = false) :
    (s.ep i).chan.running = false := by
  by_contra run
  obtain ⟨dma, -⟩ := a.slice (by simpa using run)
  rw [hd] at dma
  cases dma

theorem State.accountedAt.parked_of_parked (a : s.accountedAt i) (hp : s.parked i) : (s.ep i).chan.running = false := by
  by_contra run
  obtain ⟨dma, busy, count, h, head, eq, -⟩ := a.slice (by simpa using run)
  rcases hp with notBusy | rfl | ⟨h', rest, hq, len⟩
  · rw [notBusy] at busy; cases busy
  · exact absurd dma (by simp [State.hasDma])
  · have same : h' = h := by rw [State.peek_eq, hq] at head; exact Option.some.inj head
    subst same
    have counted := a.counts h' (by rw [hq]; exact List.mem_cons_self)
    rw [Request.counted, len] at counted
    exact count (eq.trans (by bv_omega))

theorem State.accountedAt.between (a : s.accountedAt i) (o : s.ownership) (hr : (s.ep i).chan.running = false) :
    s.between i := ⟨a.tocountedAt, o, hr⟩

/-! ### Between two requests -/

theorem State.countedAt.modEp {f : Endpoint → Endpoint} (c : s.countedAt i)
    (queue : (f (s.ep i)).queue = (s.ep i).queue) (dmaIe : (f (s.ep i)).chan.ie = true → s.hasDma i = true)
    (rxIe : (f (s.ep i)).ctl.rxrdyIe = true → s.hasDma i = false) : (s.modEp i f).countedAt i := by
  refine ⟨fun h hh => ?_, fun h hh => ?_, ?_, ?_⟩
  · rw [State.modEp_ep_same, queue] at hh; exact c.counts h hh
  · rw [State.modEp_ep_same, queue] at hh; exact c.tail h hh
  · rw [State.modEp_ep_same]; exact dmaIe
  · rw [State.modEp_ep_same]; exact rxIe

theorem State.modEp_peek {f : Endpoint → Endpoint} (queue : (f (s.ep i)).queue = (s.ep i).queue) :
    (s.modEp i f).peek i = s.peek i := by
  rw [State.peek_eq, State.modEp_ep_same, queue]
  rfl

theorem State.ownership.head_req (o : s.ownership) (hp : s.peek i = some h) (f : Request → Request) :
    (s.modReq h f).req h = f (s.req h) :=
  State.modReq_req_same s h f (o.queued i h (List.mem_of_mem_head? hp)).1

/-- The requests behind the head are not the head. -/
theorem State.ownership.tail_ne (o : s.ownership) (hp : s.peek i = some h) {k : Ref} (hk : k ∈ (s.ep i).queue.tail) :
    k ≠ h := by
  obtain ⟨rest, hq⟩ := State.peek_some hp
  have once := o.once i
  rw [hq] at once hk
  exact fun e => (List.nodup_cons.mp once).1 (e ▸ hk)

/-- An update of the head's counts. -/
theorem State.countedAt.modHead {f : Request → Request} (c : s.countedAt i) (o : s.ownership) (hp : s.peek i = some h)
    (counts : (f (s.req h)).counted) : (s.modReq h f).countedAt i := by
  refine ⟨fun k hk => ?_, fun k hk => ?_, c.dmaIe, c.rxIe⟩
  · by_cases hkh : k = h
    · subst hkh; rw [o.head_req hp]; exact counts
    · rw [State.modReq_req_other s h k f hkh]; exact c.counts k hk
  · rw [State.modReq_req_other s h k f (o.tail_ne hp hk)]
    exact c.tail k hk

namespace State.between

variable (b : s.between i)
include b

theorem modEp {f : Endpoint → Endpoint} (queue : (f (s.ep i)).queue = (s.ep i).queue)
    (rxpend : (f (s.ep i)).rxpend = (s.ep i).rxpend) (dmaIe : (f (s.ep i)).chan.ie = true → s.hasDma i = true)
    (rxIe : (f (s.ep i)).ctl.rxrdyIe = true → s.hasDma i = false) (run : (f (s.ep i)).chan.running = false) :
    (s.modEp i f).between i :=
  ⟨b.tocountedAt.modEp queue dmaIe rxIe, updateClosed_ownership.modEp queue rxpend b.owned,
    by rw [State.modEp_ep_same]; exact run⟩

/-- An update that keeps what is under way. -/
theorem inert {f : Endpoint → Endpoint} (work : ∀ e, (f e).work = e.work) : (s.modEp i f).between i := by
  have work := work (s.ep i)
  simp only [Endpoint.work, Prod.mk.injEq] at work
  obtain ⟨rxpend, queue, -, chan, rxIe⟩ := work
  exact b.modEp queue rxpend (by rw [chan]; exact b.dmaIe) (by rw [rxIe]; exact b.rxIe) (by rw [chan]; exact b.parked)

theorem setEpState (x : EpState) : (s.setEpState i x).between i := b.inert fun _ => rfl

theorem modHead {f : Request → Request} (hp : s.peek i = some h) (owner : ∀ q, (f q).owner = q.owner)
    (counts : (f (s.req h)).counted) : (s.modReq h f).between i :=
  ⟨b.tocountedAt.modHead b.owned hp counts, updateClosed_ownership.modReq owner b.owned, b.parked⟩

/-- After a completion the new head is untouched. -/
theorem complete (r : Result) : (s.complete i r).between i ∧ (s.complete i r).rested i := by
  cases hq : (s.ep i).queue with
  | nil =>
    rw [State.complete_nil s i r hq]
    exact ⟨b, fun h hp => by rw [State.peek_eq, hq] at hp; cases hp⟩
  | cons h rest =>
    have ep := State.complete_ep_same s i r
    have untouched : ∀ k, k ∈ rest → ((s.complete i r).req k).untouched := by
      intro k hk
      have tail : k ∈ (s.ep i).queue.tail := by rw [hq]; exact hk
      rw [State.complete_cons s i r hq, State.callback_req,
        State.modReq_req_other _ h k _ (b.owned.tail_ne (by rw [State.peek_eq, hq]; rfl) tail)]
      exact b.tail k tail
    have queue : ((s.complete i r).ep i).queue = rest := by rw [ep, hq]; rfl
    have dma : (s.complete i r).hasDma i = s.hasDma i := by unfold State.hasDma; rw [State.complete_cfg]
    refine ⟨⟨⟨fun k hk => ?_, fun k hk => ?_, ?_, ?_⟩, b.owned.complete i r, ?_⟩, fun k hk => ?_⟩
    · exact (untouched k (by rwa [queue] at hk)).counted
    · exact untouched k (by rw [queue] at hk; exact List.mem_of_mem_tail hk)
    · rw [ep, dma]; exact b.dmaIe
    · rw [ep, dma]; exact b.rxIe
    · rw [ep]; exact b.parked
    · exact untouched k (by rw [State.peek_eq, queue] at hk; exact List.mem_of_mem_head? hk)

/-- A loop that ends with nothing under way, or in a transfer. -/
theorem accountedAt (still : s.moving i = false → s.rested i)
    (reading : (s.ep i).state = .receiving → s.hasDma i = false → ∀ h, s.peek i = some h → (s.req h).inflight = 0) :
    s.accountedAt i :=
  ⟨b.tocountedAt, still, reading, fun run => absurd run (by rw [b.parked]; decide)⟩

theorem accountedAt_of_rested (r : s.rested i) : s.accountedAt i :=
  b.accountedAt (fun _ => r) fun _ _ h hp => (r h hp).2.1

theorem accountedAt_of_sending (hs : (s.ep i).state = .sending) : s.accountedAt i :=
  b.accountedAt (fun hm => by rw [State.moving, hs] at hm; cases hm) fun hr => by rw [hs] at hr; cases hr

theorem accountedAt_setEpState_of_nil (hp : s.peek i = none) (x : EpState) : (s.setEpState i x).accountedAt i := by
  refine (b.setEpState x).accountedAt_of_rested fun h hh => ?_
  rw [show (s.setEpState i x).peek i = s.peek i from State.modEp_peek rfl, hp] at hh
  cases hh

end State.between

theorem State.rested.setEpState (r : s.rested i) (x : EpState) : (s.setEpState i x).rested i := by
  intro h hp
  rw [show (s.setEpState i x).peek i = s.peek i from State.modEp_peek rfl] at hp
  exact r h hp

end Sys2Proof.Machine
end

section
/-! SUPPORT. Starting and moving data keeps the counts of requests (O56). -/

namespace Sys2Proof.Machine

variable {s t : State} {i : EpIx} {h : Ref}

/-! ### Counts -/

theorem Request.counted.countSent {q : Request} (c : q.counted) :
    ({ q with xfrd := q.xfrd + q.inflight, inflight := 0 } : Request).counted := by
  unfold Request.counted at *
  dsimp only
  bv_omega

theorem Request.counted.send {q : Request} (c : q.counted) {n : Len} (hn : n ≤ q.len - q.xfrd) :
    ({ q with inflight := n, started := true } : Request).counted := c.next hn

theorem Request.counted.read {q : Request} (c : q.counted) (hi : q.inflight = 0) {n : Len} (hn : n ≤ q.len - q.xfrd) :
    ({ q with xfrd := q.xfrd + n } : Request).counted := by
  have := c.next hn
  unfold Request.counted
  dsimp only
  rw [hi]
  bv_omega

theorem Request.counted.count {q : Request} (c : q.counted) {k : Len} (hk : k ≤ q.inflight) :
    ({ q with xfrd := q.xfrd + k, inflight := 0 } : Request).counted := by
  unfold Request.counted at *
  dsimp only
  bv_omega

theorem Request.counted.drop {q : Request} (c : q.counted) : ({ q with inflight := 0 } : Request).counted := c.xfrd_le

/-! ### Packets -/

theorem State.peek_of_queue (e : (t.ep i).queue = (s.ep i).queue) : t.peek i = s.peek i := by
  rw [State.peek_eq, e]
  rfl

namespace State.between

variable (b : s.between i)
include b

theorem head_counted (hp : s.peek i = some h) : (s.req h).counted := b.counts h (List.mem_of_mem_head? hp)

theorem view (e : t.view = s.view) : t.between i where
  owned := updateClosed_ownership.view b.owned e
  parked := by rw [State.ep_of_view e]; exact b.parked
  counts h hh := by rw [State.req_of_view e]; exact b.counts h (by rwa [← State.ep_of_view e])
  tail h hh := by rw [State.req_of_view e]; exact b.tail h (by rwa [← State.ep_of_view e])
  dmaIe := by unfold State.hasDma; rw [State.ep_of_view e, State.cfg_of_view e]; exact b.dmaIe
  rxIe := by unfold State.hasDma; rw [State.ep_of_view e, State.cfg_of_view e]; exact b.rxIe

theorem setRxpend (x : Bool) : (s.setRxpend i x).between i := by
  have ep : (s.setRxpend i x).ep i = { s.ep i with rxpend := x } := by rw [State.setRxpend_ep, if_pos rfl]
  refine ⟨⟨fun h hh => b.counts h (by rwa [ep] at hh), fun h hh => b.tail h (by rwa [ep] at hh), ?_, ?_⟩,
    updateClosed_ownership.setRxpend b.owned, by rw [ep]; exact b.parked⟩
  · rw [ep]; exact b.dmaIe
  · rw [ep]; exact b.rxIe

theorem draw (n : Nat) : (s.draw n).between i := b.view rfl
theorem memWrite (a : Word) (bs : List Byte) : (s.memWrite a bs).between i := b.view rfl
theorem fifoWrite (bs : List Byte) : (s.fifoWrite i bs).between i := b.inert fun _ => rfl
theorem handTx : (s.handTx i).between i := b.inert fun _ => rfl
theorem nextBank : (s.nextBank i).between i := b.inert fun _ => rfl
theorem releaseRx : (s.releaseRx i).between i := b.inert fun _ => rfl
theorem fifoReadRx (n : Nat) : (s.fifoReadRx i n).2.between i := State.between.draw
  (b.inert (f := fun e => { e with fifo := { e.fifo with rx := (s.ep i).fifo.rx.drop n } }) fun _ => rfl) _

theorem oweZlp (h : Ref) : (s.oweZlp i h).between i := by
  unfold State.oweZlp
  split
  · exact b.inert fun _ => rfl
  · exact b

theorem countSent (hp : s.peek i = some h) : (s.countSent h).between i :=
  b.modHead hp (fun _ => rfl) (b.head_counted hp).countSent

theorem sendPacket (hp : s.peek i = some h) : (s.sendPacket i h).between i := by
  unfold State.sendPacket
  extract_lets r e remaining n
  have filled := (b.inert (f := fun e => { e with
    txnullpkt := decide (remaining - n = 0) && r.nullpkt && decide (n = e.mps) }) fun _ => rfl).fifoWrite
    (s.memRead (bufAt r.buf r.xfrd) n)
  exact (filled.modHead (f := fun q => { q with inflight := n, started := true })
    (by rw [State.peek_of_queue (s := s) (by simp), hp]) (fun _ => rfl)
    ((b.head_counted hp).send (lenMin_le_right _ _))).handTx.nextBank.setEpState _

theorem dmaZlp (hp : s.peek i = some h) : (s.dmaZlp i h).between i := by
  have head : (s.fifoWrite i []).peek i = some h := (State.peek_of_queue (by simp)).trans hp
  have sent := ((b.fifoWrite []).modHead (f := fun q => { q with inflight := 0, started := true }) head (fun _ => rfl)
    (b.head_counted hp).drop).handTx
  exact (sent.inert (f := fun e => { e with ctl := { e.ctl with txdoneIe := true } }) fun _ => rfl).nextBank.setEpState _

theorem readBank (hp : s.peek i = some h) (hi : (s.req h).inflight = 0) :
    (s.readBank i h).between i ∧ (s.readBank i h).peek i = some h ∧ ((s.readBank i h).req h).inflight = 0 := by
  unfold State.readBank
  extract_lets r n d
  have copied : (d.2.memWrite (bufAt r.buf r.xfrd) d.1).between i := (b.fifoReadRx n.toNat).memWrite _ _
  have head : (d.2.memWrite (bufAt r.buf r.xfrd) d.1).peek i = some h :=
    (State.peek_of_queue (by simp [d, State.fifoReadRx])).trans hp
  have read := copied.modHead (f := fun q => { q with xfrd := q.xfrd + n }) head (fun _ => rfl)
    ((b.head_counted hp).read hi (lenMin_le_right _ _))
  refine ⟨read.releaseRx.nextBank, (State.peek_of_queue (by simp)).trans head, ?_⟩
  have counted := copied.owned.head_req head fun q => { q with xfrd := q.xfrd + n }
  exact (congrArg Request.inflight counted).trans hi

end State.between

/-! ### Slices -/

theorem lenMin_ne_zero {a b : Len} (ha : a ≠ 0) (hb : b ≠ 0) : lenMin a b ≠ 0 := by
  unfold lenMin
  split
  · exact ha
  · exact hb

/-- The slice is programmed on the head's bytes (R203). -/
def State.programSlice (s : State) (i : EpIx) (h : Ref) (n : Len) (a : Word) : State :=
  (s.modReq h fun q => { q with inflight := n, started := true }).modEp i fun e =>
    { e with
      chan := { e.chan with addr := a, count := n, en := true, ie := true, running := true }
      dmaBusy := true }

theorem State.countedAt.programSlice {n : Len} (c : s.countedAt i) (o : s.ownership) (hd : s.hasDma i = true)
    (hp : s.peek i = some h) (hm : s.moving i = true) (nz : n ≠ 0) (hn : n ≤ (s.req h).len - (s.req h).xfrd) :
    (s.programSlice i h n (bufAt (s.req h).buf (s.req h).xfrd)).accountedAt i := by
  have sliced := c.modHead (f := fun q => { q with inflight := n, started := true }) o hp
    ((c.counts h (List.mem_of_mem_head? hp)).send hn)
  have head : (s.programSlice i h n (bufAt (s.req h).buf (s.req h).xfrd)).req h =
      { s.req h with inflight := n, started := true } :=
    o.head_req hp fun q => { q with inflight := n, started := true }
  refine ⟨sliced.modEp rfl (fun _ => hd) sliced.rxIe, fun still => ?_, fun _ noDma => ?_, fun _ => ?_⟩
  · have moving : (s.programSlice i h n (bufAt (s.req h).buf (s.req h).xfrd)).moving i = s.moving i := by
      unfold State.moving State.programSlice
      simp
    rw [moving, hm] at still
    cases still
  · exact absurd (hd.symm.trans noDma) (by decide)
  · have ep : (s.programSlice i h n (bufAt (s.req h).buf (s.req h).xfrd)).ep i = _ := State.modEp_ep_same _ _ _
    rw [ep]
    refine ⟨hd, rfl, nz, h, (State.peek_of_queue (by rw [ep]; rfl)).trans hp, ?_, ?_⟩
    · rw [head]
    · rw [head]

/-- Programming a slice of a request with bytes left (R203). -/
theorem State.countedAt.dmaSlice (c : s.countedAt i) (o : s.ownership) (hd : s.hasDma i = true)
    (cap : s.cfg.dmaFifoCap ≠ 0) (hp : s.peek i = some h) (hm : s.moving i = true)
    (left : (s.req h).xfrd < (s.req h).len) : (s.dmaSlice i).accountedAt i := by
  have some : lenMin ((s.req h).len - (s.req h).xfrd) s.cfg.dmaFifoCap ≠ 0 := lenMin_ne_zero (by bv_omega) cap
  have within := lenMin_le_left ((s.req h).len - (s.req h).xfrd) s.cfg.dmaFifoCap
  unfold State.dmaSlice
  rw [hp]
  dsimp only
  split
  · exact State.countedAt.programSlice (s := s.emit _) ⟨c.counts, c.tail, c.dmaIe, c.rxIe⟩
      (updateClosed_ownership.emit o) hd hp hm some within
  · exact c.programSlice o hd hp hm some within

/-! ### Loops -/

namespace State.between

theorem writeLoop (k : Nat) {s : State} (hk : (s.ep i).queue.length < k) (b : s.between i) :
    (writeLoop i k s).accountedAt i := by
  induction k generalizing s with
  | zero => omega
  | succ k ih =>
    unfold Machine.writeLoop
    split
    · next hp => exact b.accountedAt_setEpState_of_nil hp _
    · next h hp =>
      dsimp only
      have owed := (b.countSent hp).oweZlp h
      have queue : (((s.countSent h).oweZlp i h).ep i).queue = (s.ep i).queue := State.oweZlp_queue (s.countSent h) h
      have head := (State.peek_of_queue queue).trans hp
      split
      · exact (owed.sendPacket head).accountedAt_of_sending (State.sendPacket_ep _ h).1
      · refine ih ?_ (owed.complete .ok).1
        have := State.complete_queue_length head .ok
        rw [queue] at this
        omega

theorem readLoop (k : Nat) {s : State} (hd : s.hasDma i = false) (b : s.between i) (r : s.rested i) :
    (readLoop i k s).accountedAt i := by
  induction k generalizing s with
  | zero => exact b.accountedAt_of_rested r
  | succ k ih =>
    unfold Machine.readLoop
    split
    · next hp => exact b.accountedAt_setEpState_of_nil hp _
    · next h hp =>
      split
      · obtain ⟨done, rest⟩ := b.complete .ok
        exact ih (by unfold State.hasDma; rw [State.complete_cfg]; exact hd) done rest
      · extract_lets s1 s2 s3
        have waiting : s1.between i := b.setEpState .receiving
        have rest : s1.rested i := r.setEpState .receiving
        split
        · have freed : s2.between i := (waiting.setRxpend false).modEp rfl rfl (waiting.setRxpend false).dmaIe
            (fun _ => hd) (waiting.setRxpend false).parked
          have head : s2.peek i = some h := (State.peek_of_queue (by simp [s2, s1])).trans hp
          obtain ⟨read, head', dry⟩ := freed.readBank head (r h hp).2.1
          have dma : s3.hasDma i = false := hd
          have state : (s3.ep i).state = .receiving := by
            rw [(State.readBank_ep (i := i) s2 h).1]; simp [s2, s1]
          split
          · obtain ⟨done, rest⟩ := read.complete .ok
            refine ih ?_ (done.setEpState .idle) (rest.setEpState .idle)
            show State.hasDma (State.complete _ _ _) i = false
            unfold State.hasDma
            rw [State.complete_cfg]
            exact hd
          · refine read.accountedAt (fun hm => ?_) fun _ _ k hk => ?_
            · rw [State.moving, state] at hm; cases hm
            · rw [head'] at hk; cases hk; exact dry
        · exact waiting.accountedAt_of_rested rest

theorem dmaStartLoop (k : Nat) {s : State} (hd : s.hasDma i = true) (cap : s.cfg.dmaFifoCap ≠ 0) (b : s.between i)
    (r : s.rested i) : (dmaStartLoop i k s).accountedAt i := by
  induction k generalizing s with
  | zero => exact b.accountedAt_of_rested r
  | succ k ih =>
    unfold Machine.dmaStartLoop
    split
    · exact b.accountedAt_of_rested r
    · next h hp =>
      split
      · split
        · exact (b.dmaZlp hp).accountedAt_of_sending (by unfold State.dmaZlp; simp)
        · obtain ⟨done, rest⟩ := b.complete .ok
          refine ih ?_ ?_ (done.setEpState .idle) (rest.setEpState .idle)
          · show State.hasDma (State.complete _ _ _) i = true
            unfold State.hasDma
            rw [State.complete_cfg]
            exact hd
          · show (State.complete _ _ _).cfg.dmaFifoCap ≠ 0
            rw [State.complete_cfg]
            exact cap
      · next hlen =>
        have moving := b.setEpState (if s.isIn i then EpState.sending else EpState.receiving)
        refine moving.tocountedAt.dmaSlice moving.owned hd cap ((State.modEp_peek rfl).trans hp) ?_ ?_
        · rw [State.moving_iff, State.setEpState_ep, if_pos rfl]
          dsimp only
          split <;> simp
        · show (s.req h).xfrd < (s.req h).len
          rw [(r h hp).2.2]
          bv_omega

theorem startTransfer (cap : s.cfg.dmaFifoCap ≠ 0) (b : s.between i) (hs : (s.ep i).state = .idle) (r : s.rested i) :
    (s.startTransfer i).accountedAt i := by
  unfold State.startTransfer State.dmaStart
  split
  · exact b.accountedAt_of_rested r
  · split
    · next hd => rw [if_neg (by simp [hs])]; exact b.dmaStartLoop _ hd cap r
    · next hd =>
      split
      · exact b.writeLoop _ (Nat.lt_succ_self _)
      · exact b.readLoop _ (by simpa using hd) r

end State.between

end Sys2Proof.Machine
end

section
/-! SUPPORT. The counts of requests are an invariant of every step (O56). -/

namespace Sys2Proof.Machine

variable {s t : State} {i : EpIx} {h : Ref}

theorem State.hasDma_zero (s : State) : s.hasDma 0 = false := rfl

theorem State.hasDma_congr (cfg : t.cfg = s.cfg) (i : EpIx) : t.hasDma i = s.hasDma i := by
  unfold State.hasDma
  rw [cfg]

/-! ### Quiet updates -/

theorem State.rested_of_nil (hq : (s.ep i).queue = []) : s.rested i := fun h hp => by
  rw [State.peek_eq, hq] at hp
  cases hp

theorem State.accountedAt.quiet {f : Endpoint → Endpoint} (a : s.accountedAt i)
    (q : (s.ep i).Quiet i (s.hasDma i) (f (s.ep i))) (still : (s.modEp i f).moving i = false → s.rested i)
    (reading : (f (s.ep i)).state = .receiving → (s.ep i).state = .receiving) : (s.modEp i f).accountedAt i := by
  have peek : (s.modEp i f).peek i = s.peek i := State.modEp_peek q.queue
  refine ⟨a.modEp q.queue (fun ie => (q.chanIe ie).elim a.dmaIe id) (fun ie => (q.rxIe ie).elim a.rxIe id),
    fun hm h hp => ?_, fun hs hd h hp => ?_, fun run => ?_⟩
  · rw [peek] at hp; exact still hm h hp
  · rw [peek] at hp
    rw [State.modEp_ep_same] at hs
    exact a.reading (reading hs) hd h hp
  · rw [State.modEp_ep_same] at run ⊢
    obtain ⟨run, busy, count, addr⟩ := q.slice run
    rw [busy, count, addr, peek]
    exact a.slice run

theorem State.accounted.modEp {f : Endpoint → Endpoint} (a : s.accounted)
    (q : (s.ep i).Quiet i (s.hasDma i) (f (s.ep i))) (still : (s.modEp i f).moving i = false → s.rested i)
    (reading : (f (s.ep i)).state = .receiving → (s.ep i).state = .receiving) : (s.modEp i f).accounted := by
  refine State.accounted_of_at a.hasEp0 a.capacity (updateClosed_ownership.modEp q.queue q.rxpend a.owned) fun j => ?_
  by_cases hj : j = i
  · subst hj; exact (a.at j).quiet q still reading
  · exact (a.at j).congr rfl (by rw [State.modEp_ep_other _ _ _ _ hj]) fun _ _ => rfl

theorem State.accounted.touch {f : Endpoint → Endpoint} (a : s.accounted)
    (q : (s.ep i).Quiet i (s.hasDma i) (f (s.ep i))) (state : (f (s.ep i)).state = (s.ep i).state) :
    (s.modEp i f).accounted :=
  a.modEp q (fun hm => (a.at i).still (by
    unfold State.moving at hm
    rwa [State.modEp_ep_same, state] at hm)) fun h => state ▸ h

theorem State.accounted.settle {f : Endpoint → Endpoint} (a : s.accounted)
    (q : (s.ep i).Quiet i (s.hasDma i) (f (s.ep i))) (hr : (f (s.ep i)).state ≠ .receiving)
    (none : s.moving i = false ∨ (s.ep i).queue = []) : (s.modEp i f).accounted :=
  a.modEp q (fun _ => none.elim (a.at i).still State.rested_of_nil) fun h => absurd h hr

theorem State.accounted.view (a : s.accounted) (e : t.view = s.view) : t.accounted :=
  a.congr (State.cfg_of_view e) (updateClosed_ownership.view a.owned e) (fun j => by rw [State.ep_of_view e])
    fun _ k _ => State.req_of_view e k

/-! ### Procedures on one endpoint -/

theorem State.accounted.startTransfer (a : s.accounted) (hs : (s.ep i).state = .idle) : (s.startTransfer i).accounted := by
  have still : s.moving i = false := State.not_moving_of_state hs nofun nofun
  have b := (a.at i).between a.owned ((a.at i).parked_of_still still)
  exact a.frame (EpFrame.start i s).startTransfer (updateClosed_ownership.startTransfer a.owned)
    (b.startTransfer a.capacity hs ((a.at i).still still))

theorem State.accounted.finish {r : Result} (a : s.accounted) (hp : s.parked i) :
    ((s.complete i r).setEpState i .idle).accounted := by
  obtain ⟨done, rest⟩ := ((a.at i).between a.owned ((a.at i).parked_of_parked hp)).complete r
  have idle := done.setEpState .idle
  exact a.frame (((EpFrame.start i s).complete r).setEpState .idle) idle.owned
    (idle.accountedAt_of_rested (rest.setEpState .idle))

theorem State.accounted.drain {r : Result} (a : s.accounted) (hp : s.parked i) : (s.drain i r).accounted := by
  have ep := State.drain_ep_same s i r
  have dma := State.hasDma_congr (State.drain_cfg s i r) i
  have owned := updateClosed_ownership.drain (i := i) (r := r) a.owned
  have queue : ((s.drain i r).ep i).queue = [] := by rw [ep]
  have drained : (s.drain i r).between i := by
    refine ⟨⟨fun h hh => ?_, fun h hh => ?_, ?_, ?_⟩, owned, ?_⟩
    · rw [queue] at hh; cases hh
    · rw [queue] at hh; cases hh
    · rw [ep, dma]; exact a.dmaIe i
    · rw [ep, dma]; exact a.rxIe i
    · rw [ep]; exact (a.at i).parked_of_parked hp
  exact a.frame ((EpFrame.start i s).drain r) owned (drained.accountedAt_of_rested (State.rested_of_nil queue))

/-- An update of a parked endpoint's head that leaves nothing in flight. -/
theorem State.accounted.modHead {f : Request → Request} (a : s.accounted) (park : s.parked i) (hp : s.peek i = some h)
    (owner : ∀ q, (f q).owner = q.owner) (operands : ∀ q, (f q).buf = q.buf ∧ (f q).len = q.len ∧
      (f q).nullpkt = q.nullpkt ∧ (f q).callback = q.callback) (dry : (f (s.req h)).inflight = 0)
    (counts : (f (s.req h)).counted) (still : s.moving i = false → (s.req h).untouched → (f (s.req h)).untouched) :
    (s.modReq h f).accounted := by
  have head : (s.modReq h f).req h = f (s.req h) := a.owned.head_req hp f
  have b := ((a.at i).between a.owned ((a.at i).parked_of_parked park)).modHead hp owner counts
  refine a.frame ((EpFrame.start i s).modReq h ((EpFrame.start i s).peekMem hp) f operands) b.owned
    (b.accountedAt (fun hm k hk => ?_) fun _ _ k hk => ?_)
  · cases hp.symm.trans hk; rw [head]; exact still hm ((a.at i).still hm h hp)
  · cases hp.symm.trans hk; rw [head]; exact dry

theorem State.accounted.dropInflight (a : s.accounted) (park : s.parked i) : (s.dropInflight i).accounted := by
  unfold State.dropInflight
  split
  · exact a
  · next h hp =>
    exact a.modHead park hp (fun _ => rfl) (fun _ => ⟨rfl, rfl, rfl, rfl⟩) rfl
      ((a.at i).counts h (List.mem_of_mem_head? hp)).drop fun _ u => ⟨u.1, rfl, u.2.2⟩

theorem State.accounted.countSlice {k : Len} (a : s.accounted) (park : s.parked i) (hp : s.peek i = some h)
    (hm : s.moving i = true) (hk : k ≤ (s.req h).inflight) : (s.countSlice i h k).accounted := by
  have counted := ((a.at i).counts h (List.mem_of_mem_head? hp)).count hk
  unfold State.countSlice
  dsimp only
  split
  · exact a.modHead park hp (fun _ => rfl) (fun _ => ⟨rfl, rfl, rfl, rfl⟩) rfl counted fun still => by simp [hm] at still
  · exact State.accounted.modHead (s := s.emit _) (a.view rfl) park hp (fun _ => rfl) (fun _ => ⟨rfl, rfl, rfl, rfl⟩) rfl
      counted fun still => absurd (hm.symm.trans still) (by decide)

theorem State.accounted.writeProcess (a : s.accounted)
    (hs : ((s.ep i).state = .sending ∧ s.hasDma i = false) ∨ (s.ep i).state = .ep0StatusIn) :
    (s.writeProcess i).accounted := by
  have parked : (s.ep i).chan.running = false := by
    rcases hs with ⟨-, noDma⟩ | status
    · exact (a.at i).parked_of_noDma noDma
    · exact (a.at i).parked_of_still (State.not_moving_of_state status nofun nofun)
  exact a.frame (EpFrame.start i s).writeProcess (updateClosed_ownership.writeProcess a.owned)
    (((a.at i).between a.owned parked).writeLoop _ (Nat.lt_succ_self _))

theorem State.accounted.readPacket (a : s.accounted) (hd : s.hasDma i = false) (hs : (s.ep i).state = .receiving) :
    (s.readPacket i).accounted := by
  refine a.frame (EpFrame.start i s).readPacket (updateClosed_ownership.readPacket a.owned) ?_
  unfold State.readPacket
  split
  · exact a.at i
  · next h hp =>
    have b := (a.at i).between a.owned ((a.at i).parked_of_noDma hd)
    obtain ⟨read, head, dry⟩ := b.readBank hp ((a.at i).reading hs hd h hp)
    have state : ((s.readBank i h).ep i).state = .receiving := (State.readBank_ep s h).1.trans hs
    dsimp only
    split
    · obtain ⟨done, rest⟩ := read.complete .ok
      refine (done.setEpState .idle).readLoop _ ?_ (rest.setEpState .idle)
      exact (State.hasDma_congr (State.complete_cfg _ i .ok) i).trans hd
    · refine read.accountedAt (fun hm => ?_) fun _ _ k hk => ?_
      · rw [State.moving, state] at hm; cases hm
      · cases head.symm.trans hk; exact dry

theorem State.accounted.dmaSlice (a : s.accounted) (hd : s.hasDma i = true) (hp : s.peek i = some h)
    (hm : s.moving i = true) (left : (s.req h).xfrd < (s.req h).len) : (s.dmaSlice i).accounted :=
  a.frame (EpFrame.start i s).dmaSlice (updateClosed_ownership.dmaSlice a.owned)
    ((a.at i).dmaSlice a.owned hd a.capacity hp hm left)

/-- Restarting EP0's queue, whatever EP0 was doing: it has no DMA and sends. -/
theorem State.between.restartEp0 (b : s.between 0) : ((s.setEpState 0 .idle).startTransfer 0).accountedAt 0 := by
  unfold State.startTransfer
  split
  · next hq =>
    have empty : ((s.setEpState 0 .idle).ep 0).queue = [] := by simpa using hq
    exact (b.setEpState .idle).accountedAt_of_rested (State.rested_of_nil empty)
  · rw [if_neg (by rw [State.hasDma_zero]; decide), if_pos (show State.isIn _ 0 = true from rfl)]
    exact (b.setEpState .idle).writeLoop _ (Nat.lt_succ_self _)

theorem State.accounted.applyAddress (a : s.accounted) : s.applyAddress.accounted := by
  have addressed : s.withAddress.accounted :=
    a.congr rfl (a.owned.congr (fun _ => rfl) rfl rfl fun _ => rfl) (fun _ => rfl) fun _ _ _ => rfl
  have b := (addressed.at 0).between addressed.owned ((addressed.at 0).parked_of_noDma rfl)
  rw [State.applyAddress_eq]
  exact addressed.frame ((EpFrame.start 0 _).setEpState .idle).startTransfer
    (updateClosed_ownership.startTransfer (b.setEpState .idle).owned) b.restartEp0

/-! ### The record table -/

/-- Requests that are not the engine's are on no queue. -/
theorem State.ownership.queued_ne (o : s.ownership) (hd : s.hasReq h = true → (s.req h).owner ≠ .engine) {j : EpIx}
    {k : Ref} (hk : k ∈ (s.ep j).queue) : k ≠ h := by
  obtain ⟨known, engine⟩ := o.queued j k hk
  exact fun e => hd (e ▸ known) (e ▸ engine)

/-- A request that joins a queue untouched (R130). -/
theorem State.accountedAt.enqueue (a : s.accountedAt i) (cfg : t.cfg = s.cfg)
    (ep : t.ep i = { s.ep i with queue := (s.ep i).queue ++ [h] }) (old : ∀ k, k ∈ (s.ep i).queue → t.req k = s.req k)
    (new : (t.req h).untouched) : t.accountedAt i := by
  have dma := State.hasDma_congr cfg i
  have queue : (t.ep i).queue = (s.ep i).queue ++ [h] := by rw [ep]
  have moving : t.moving i = s.moving i := by unfold State.moving; rw [ep]
  have peek : ∀ k, t.peek i = some k → (s.peek i = some k ∧ t.req k = s.req k) ∨ (t.req k).untouched := by
    intro k hk
    rw [State.peek_eq, queue, List.head?_append] at hk
    cases hp : (s.ep i).queue.head? with
    | none => rw [hp] at hk; cases hk; exact .inr new
    | some k' => rw [hp] at hk; cases hk; exact .inl ⟨hp, old k (List.mem_of_mem_head? hp)⟩
  refine ⟨⟨fun k hk => ?_, fun k hk => ?_, ?_, ?_⟩, fun hm k hk => ?_, fun hs hd k hk => ?_, fun run => ?_⟩
  · rw [queue] at hk
    rcases List.mem_append.mp hk with hk | hk
    · rw [old k hk]; exact a.counts k hk
    · rw [List.mem_singleton.mp hk]; exact new.counted
  · rw [queue] at hk
    have place : k ∈ (s.ep i).queue.tail ∨ k = h := by
      revert hk
      cases (s.ep i).queue <;> simp
    rcases place with hk | rfl
    · rw [old k (List.mem_of_mem_tail hk)]; exact a.tail k hk
    · exact new
  · rw [ep, dma]; exact a.dmaIe
  · rw [ep, dma]; exact a.rxIe
  · rcases peek k hk with ⟨hp, same⟩ | fresh
    · rw [same]; exact a.still (moving ▸ hm) k hp
    · exact fresh
  · rcases peek k hk with ⟨hp, same⟩ | fresh
    · rw [ep] at hs
      rw [same]
      exact a.reading hs (dma ▸ hd) k hp
    · exact fresh.2.1
  · rw [ep] at run ⊢
    obtain ⟨hd, busy, count, k, hp, eq, addr⟩ := a.slice run
    have same := old k (List.mem_of_mem_head? hp)
    refine ⟨dma.trans hd, busy, count, k, ?_, by rw [same]; exact eq, by rw [same]; exact addr⟩
    rw [State.peek_eq] at hp ⊢
    rw [queue, List.head?_append, hp]
    rfl

theorem State.accounted.submit (a : s.accounted) (ha : s.accepts i h) :
    ((s.modReq h submitted).enqueue i h).accounted := by
  have driver : (s.req h).owner ≠ .engine := OpsInvariant.owner_of_not_engineOwns ha.owner
  have old : ∀ j k, k ∈ (s.ep j).queue → ((s.modReq h submitted).enqueue i h).req k = s.req k := fun j k hk =>
    State.modReq_req_other s h k submitted (a.owned.queued_ne (fun _ => driver) hk)
  have new : ((s.modReq h submitted).enqueue i h).req h = submitted (s.req h) :=
    State.modReq_req_same s h submitted ha.exists_
  refine State.accounted_of_at a.hasEp0 a.capacity (a.owned.submit ha) fun j => ?_
  have ep := State.enqueue_ep (s.modReq h submitted) i j h
  by_cases hj : j = i
  · subst hj
    rw [if_pos rfl] at ep
    exact (a.at j).enqueue rfl ep (old j) (by rw [new]; exact ⟨rfl, rfl, rfl⟩)
  · rw [if_neg hj] at ep
    exact (a.at j).congr rfl (by rw [ep]; rfl) (old j)

theorem State.accounted.allocate (a : s.accounted) (hn : s.nextReq ≠ nullRef) : s.withNewReq.accounted :=
  a.congr rfl (a.owned.allocate hn) (fun _ => rfl) fun _ k _ => a.owned.withNewReq_req hn k

theorem State.accounted.free (a : s.accounted) (hd : (s.req h).owner ≠ .engine) : (s.withoutReq h).accounted :=
  a.congr rfl (a.owned.free hd) (fun _ => rfl) fun _ k hk => by
    rw [State.withoutReq_req, if_neg (a.owned.queued_ne (fun _ => hd) hk)]

theorem State.accounted.setReq {f : Request → Request} (a : s.accounted) (owner : ∀ q, (f q).owner = q.owner)
    (hd : s.hasReq h = true → (s.req h).owner ≠ .engine) : (s.modReq h f).accounted :=
  a.congr rfl (updateClosed_ownership.modReq owner a.owned) (fun _ => rfl) fun _ k hk =>
    State.modReq_req_other s h k f (a.owned.queued_ne hd hk)

/-! ### The invariant -/

theorem opsInvariant_accounted : OpsInvariant fun _ => State.accounted where
  view a e := a.view e
  mono _ a := a
  touch q state a := a.touch q state
  settle q still none _ a := a.settle q still.2 none
  setRxpend {_ s i b} a := a.frame ((EpFrame.start i s).setRxpend b) (updateClosed_ownership.setRxpend a.owned)
    ((a.at i).congr rfl (by rw [State.setRxpend_ep, if_pos rfl]; rfl) fun _ _ => rfl)
  start hs a := a.startTransfer hs
  finish _ hp a := a.finish hp
  drain hp a := a.drain hp
  dropInflight hp a := a.dropInflight hp
  submit ha a := a.submit ha
  allocate hn a := a.allocate hn
  free hd a := a.free hd
  setReq hd a := a.setReq (fun _ => rfl) hd
  pullup a := a.congr rfl (opsInvariant_ownership.pullup (s := _) a.owned) (fun _ => rfl) fun _ _ _ => rfl
  clkgate a := a.congr rfl (opsInvariant_ownership.clkgate a.owned) (fun _ => rfl) fun _ _ _ => rfl

/-! ### The bus reset -/

/-- An endpoint with no request, no slice and its own enables. -/
theorem State.accountedAt_of_nil (hq : (s.ep i).queue = []) (run : (s.ep i).chan.running = false)
    (ie : (s.ep i).chan.ie = false) (rxIe : (s.ep i).ctl.rxrdyIe = true → s.hasDma i = false) : s.accountedAt i where
  counts h hh := by rw [hq] at hh; cases hh
  tail h hh := by rw [hq] at hh; cases hh
  dmaIe h := by rw [ie] at h; cases h
  rxIe := rxIe
  still _ := State.rested_of_nil hq
  reading _ _ h hp := by rw [State.peek_eq, hq] at hp; cases hp
  slice h := by rw [run] at h; cases h

theorem State.accounted.inert {f : Endpoint → Endpoint} (a : s.accounted) (account : ∀ e, (f e).account = e.account)
    (rxpend : ∀ e, (f e).rxpend = e.rxpend) : (s.modEp i f).accounted := by
  refine a.congr rfl (updateClosed_ownership.modEp (congrArg (·.2.1) (account _)) (rxpend _) a.owned) (fun j => ?_)
    fun _ _ _ => rfl
  by_cases hj : j = i
  · subst hj; rw [State.modEp_ep_same, account]
  · rw [State.modEp_ep_other _ _ _ _ hj]

theorem State.accounted.resetEp (a : s.accounted) : (s.resetEp i).accounted := by
  have V := opsInvariant_accounted
  have stopped : ((s.maskEpIrq i).dmaStopIfBusy i).accounted :=
    V.dmaStopIfBusy (W := ∅) (V.maskEpIrq (W := ∅) a)
  have cancelled := V.cancelAll (W := ∅) (r := .shutdown) OpsInvariant.parked_dmaStopIfBusy stopped
  have cleared := cancelled.inert (i := i) (f := fun e =>
    { e with stalled := false, halted := false, txnullpkt := false, ctl := { e.ctl with forcestall := false } })
    (fun _ => rfl) fun _ => rfl
  exact V.withdrawTx (W := ∅) (V.setRxpend (W := ∅) cleared)

theorem State.disableOthers_reqs (s : State) : s.disableOthers.reqs = s.reqs :=
  UpdateClosed.forEps (P := fun u => u.reqs = s.reqs) (f := fun i s => s.disableAfterReset i) (fun _ _ e => e) _ rfl

theorem State.defaultEp0_reqs (s : State) : s.defaultEp0.reqs = s.reqs := by
  unfold State.defaultEp0
  dsimp only
  rw [State.unmaskEpIrq_eq]
  rfl

theorem State.defaultDevice_reqs (s : State) : s.defaultDevice.reqs = s.reqs := rfl

theorem State.accountedAt.stoppedChan (a : s.accountedAt i) (ie : Bool) :
    ((s.ep i).stoppedChan ie).running = false := by
  show (if (s.ep i).dmaBusy then false else (s.ep i).chan.running) = false
  split
  · rfl
  · next idle =>
    by_contra run
    obtain ⟨-, busy, -⟩ := a.slice (by simpa using run)
    exact idle busy

theorem State.accounted.busReset (a : s.accounted) : s.busReset.accounted := by
  have noted : s.noteBusReset.accounted := by
    unfold State.noteBusReset State.notify
    split
    · exact a.view rfl
    · exact a.view rfl
  have reset : s.noteBusReset.resetAll.accounted := UpdateClosed.forEps (fun _ _ a => a.resetEp) _ noted
  have reqs : s.busReset.reqs = s.noteBusReset.resetAll.reqs := by
    rw [State.busReset_eq, State.defaultDevice_reqs, State.defaultEp0_reqs, State.disableOthers_reqs]
  have cfg : s.busReset.cfg = s.cfg := congrArg Prod.fst (busReset_fixed s)
  refine State.accounted_of_at (by rw [cfg]; exact a.hasEp0) (by rw [cfg]; exact a.capacity) a.owned.busReset fun j => ?_
  by_cases h0 : j = 0
  · subst h0
    obtain ⟨rx, e⟩ := s.busReset_ep_zero (State.validEp_zero a.hasEp0)
    exact State.accountedAt_of_nil (by rw [e]; rfl) (by rw [e]; exact (a.at 0).stoppedChan false) (by rw [e]; rfl)
      fun _ => rfl
  · cases hv : s.validEp j with
    | false =>
      have same : s.noteBusReset.resetAll.ep j = s.ep j :=
        ((State.resetAll_ep _ j).1 ((State.validEp_congr s.noteBusReset_cfg j).trans hv)).trans (s.noteBusReset_ep j)
      refine (reset.at j).congr ?_ (by rw [s.busReset_ep_invalid h0 hv, same]) fun k _ => State.req_congr reqs k
      rw [cfg, State.resetAll_cfg, State.noteBusReset_cfg]
    | true =>
      obtain ⟨rx, e⟩ := s.busReset_ep_valid h0 hv
      exact State.accountedAt_of_nil (by rw [e]; rfl) (by rw [e]; exact (a.at j).stoppedChan false) (by rw [e]; rfl)
        fun ie => by rw [e] at ie; cases ie

theorem stepInvariant_accounted : StepInvariant fun _ => State.accounted where
  toOpsInvariant := opsInvariant_accounted
  applyAddress _ a := a.applyAddress
  write hs a := a.writeProcess hs
  read {_ _ i} a₀ hie hc hs a := a.readPacket ((State.hasDma_congr hc i).trans (a₀.rxIe i hie)) hs
  countSlice park hp hm hk a := a.countSlice park hp hm hk
  dmaSlice {_ _ i _} a₀ hie hc hp hm left a := a.dmaSlice ((State.hasDma_congr hc i).trans (a₀.dmaIe i hie)) hp hm left
  busReset a := a.busReset

/-- Settles O56: every operation works on one endpoint, whose counts starting and moving data keep. -/
theorem countsNeverExceedTheLength : Obligations.CountsNeverExceedTheLength := fun _ _ a h =>
  stepInvariant_accounted.step a h

end Sys2Proof.Machine
end

section
/-! SUPPORT. Shutting endpoints down: what masking an endpoint, stopping its channel and cancelling its queue leave of the
machine (`State.EpsShut`), once for a single endpoint (O17) and composed over the endpoints for a bus reset (O37). -/

namespace Sys2Proof.Machine

variable {s t u : State} {i : EpIx} {is : List EpIx}

/-! ### What shutting endpoints down can change -/

/-- `s` with the fields of `t` that shutting endpoints down can change. -/
def State.shutAs (s t : State) : State :=
  { s with
    eps := t.eps, reqs := t.reqs, cbList := t.cbList, mem := t.mem, draws := t.draws
    intPending := { s.intPending with dma := t.intPending.dma }
    dev := { s.dev with rxpending := t.dev.rxpending } }

/-- Nothing else differs. -/
def State.ShutFrame (s t : State) : Prop := t = s.shutAs t

theorem State.ShutFrame.trans (a : s.ShutFrame t) (b : t.ShutFrame u) : s.ShutFrame u :=
  calc u = t.shutAs u := b
    _ = (s.shutAs t).shutAs u := congrArg (State.shutAs · u) a

theorem State.ShutFrame.of_eq {eps : Vector Endpoint 16} {reqs : List (Ref × Request)} {calls : List Callback}
    (h : t = { s with eps := eps, reqs := reqs, cbList := calls }) : s.ShutFrame t := by
  subst h
  rfl

theorem State.ShutFrame.eq (a : s.ShutFrame t) : t = s.shutAs t := a
theorem State.ShutFrame.cfg (a : s.ShutFrame t) : t.cfg = s.cfg := (congrArg State.cfg a.eq :)
theorem State.ShutFrame.log (a : s.ShutFrame t) : t.log = s.log := (congrArg State.log a.eq :)
theorem State.ShutFrame.dev (a : s.ShutFrame t) : t.dev = { s.dev with rxpending := t.dev.rxpending } :=
  congrArg State.dev a.eq

/-- What shutting down the endpoints `is` leaves: their requests completed with `Shutdown`, queue by queue, and of memory
all but their open slices. -/
structure State.EpsShut (is : List EpIx) (s t : State) : Prop where
  frame : s.ShutFrame t
  calls : t.cbList = s.cbList ++ is.flatMap fun i => (s.ep i).queue.map fun h => .done i h .shutdown
  hasReq : ∀ h, t.hasReq h = s.hasReq h
  untouched : ∀ h, (∀ i, i ∈ is → h ∉ (s.ep i).queue) → t.req h = s.req h
  done : ∀ i h, i ∈ is → h ∈ (s.ep i).queue → s.hasReq h = true → t.req h = completed .shutdown (s.req h)
  memory : ∀ a : Nat, (∀ i, i ∈ is → ∀ k, k < s.openSlice i → a ≠ ((s.ep i).chan.addr + BitVec.ofNat 32 k).toNat) →
    readByte t.mem a = readByte s.mem a

theorem State.EpsShut.nil (s : State) : State.EpsShut [] s s where
  frame := rfl
  calls := by simp
  hasReq _ := rfl
  untouched _ _ := rfl
  done _ _ hi := by cases hi
  memory _ _ := rfl

/-- Writing endpoints and `dev.rxpending` afterwards does not matter. -/
theorem State.EpsShut.congr (d : State.EpsShut is s t) (frame : t.ShutFrame u) (reqs : u.reqs = t.reqs)
    (calls : u.cbList = t.cbList) (mem : u.mem = t.mem) : State.EpsShut is s u where
  frame := d.frame.trans frame
  calls := calls.trans d.calls
  hasReq h := by unfold State.hasReq; rw [reqs]; exact d.hasReq h
  untouched h hh := (State.req_congr reqs h).trans (d.untouched h hh)
  done i h hi hh hr := (State.req_congr reqs h).trans (d.done i h hi hh hr)
  memory a ha := by rw [mem]; exact d.memory a ha

theorem completed_completed (r : Result) (q : Request) : completed r (completed r q) = completed r q := rfl

theorem State.openSlice_congr {j : EpIx} (e : t.ep j = s.ep j) : t.openSlice j = s.openSlice j := by
  unfold State.openSlice State.liveSlice State.isIn
  rw [e]

/-- One endpoint, then others. -/
theorem State.EpsShut.cons (one : State.EpsShut [i] s t) (other : ∀ j, j ≠ i → t.ep j = s.ep j) (new : i ∉ is)
    (rest : State.EpsShut is t u) : State.EpsShut (i :: is) s u := by
  have same : ∀ j, j ∈ is → t.ep j = s.ep j := fun j hj => other j fun e => new (e ▸ hj)
  refine ⟨one.frame.trans rest.frame, ?_, fun h => (rest.hasReq h).trans (one.hasReq h), fun h hh => ?_,
    fun j h hj hh hr => ?_, fun a ha => ?_⟩
  · have tails : is.flatMap (fun j => (t.ep j).queue.map fun h => Callback.done j h .shutdown) =
        is.flatMap fun j => (s.ep j).queue.map fun h => .done j h .shutdown :=
      List.flatMap_congr fun j hj => by rw [same j hj]
    rw [rest.calls, one.calls, tails]
    simp
  · have before := one.untouched h fun j hj => hh j (List.mem_cons.mpr (.inl (List.mem_singleton.mp hj)))
    rw [rest.untouched h fun j hj => by rw [same j hj]; exact hh j (List.mem_cons_of_mem i hj), before]
  · have hr' : t.hasReq h = true := (one.hasReq h).trans hr
    have first : t.req h = completed .shutdown (s.req h) ∨ t.req h = s.req h := by
      by_cases hi : h ∈ (s.ep i).queue
      · exact .inl (one.done i h List.mem_cons_self hi hr)
      · exact .inr (one.untouched h fun k hk => by rw [List.mem_singleton.mp hk]; exact hi)
    by_cases later : ∃ k, k ∈ is ∧ h ∈ (t.ep k).queue
    · obtain ⟨k, hk, hq⟩ := later
      rw [rest.done k h hk hq hr']
      rcases first with e | e <;> rw [e]
      exact completed_completed _ _
    · have now : j = i := (List.mem_cons.mp hj).resolve_right fun hj => later ⟨j, hj, by rw [same j hj]; exact hh⟩
      rw [rest.untouched h fun k hk hq => later ⟨k, hk, hq⟩]
      exact one.done i h List.mem_cons_self (now ▸ hh) hr
  · have before := one.memory a fun k hk => by
      rw [List.mem_singleton.mp hk]
      exact ha i List.mem_cons_self
    have after := rest.memory a fun k hk => by
      rw [State.openSlice_congr (same k hk), same k hk]
      exact ha k (List.mem_cons_of_mem i hk)
    exact after.trans before

theorem State.EpsShut.forEps {f : EpIx → State → State} (one : ∀ i s, State.EpsShut [i] s (f i s))
    (other : ∀ i s j, j ≠ i → (f i s).ep j = s.ep j) (nodup : is.Nodup) (s : State) :
    State.EpsShut is s (s.forEps is f) := by
  induction is generalizing s with
  | nil => exact .nil s
  | cons i rest ih =>
    obtain ⟨new, nodup⟩ := List.nodup_cons.mp nodup
    exact (one i s).cons (other i s) new (ih nodup (f i s))

/-! ### One endpoint -/

theorem State.dropInflight_frame (s : State) (i : EpIx) : s.ShutFrame (s.dropInflight i) := by
  unfold State.dropInflight
  split <;> rfl

theorem State.dropInflight_req (s : State) (i : EpIx) (k : Ref) :
    completed .shutdown ((s.dropInflight i).req k) = completed .shutdown (s.req k) := by
  unfold State.dropInflight
  split
  · rfl
  · rw [State.modReq_req]
    split
    · next e => rw [e.1]; rfl
    · rfl

theorem State.dropInflight_calls (s : State) (i : EpIx) : (s.dropInflight i).cbList = s.cbList := by
  unfold State.dropInflight
  split <;> rfl

theorem State.dropInflight_hasReq (s : State) (i : EpIx) (k : Ref) : (s.dropInflight i).hasReq k = s.hasReq k := by
  unfold State.dropInflight
  split
  · rfl
  · exact State.modReq_hasReq s _ k _

/-- Abandoning a slice writes its endpoint and memory alone. -/
theorem State.scrambleSlice_frame (s : State) (i : EpIx) : s.ShutFrame (s.scrambleSlice i) ∧
    (s.scrambleSlice i).reqs = s.reqs ∧ (s.scrambleSlice i).cbList = s.cbList := by
  unfold State.scrambleSlice
  dsimp only
  split <;> exact ⟨rfl, rfl, rfl⟩

/-- Stopping a busy channel writes its endpoint, the bytes in flight of its head, and memory (R207). -/
theorem State.dmaStopIfBusy_spec (s : State) (i : EpIx) :
    s.ShutFrame (s.dmaStopIfBusy i) ∧ (s.dmaStopIfBusy i).cbList = s.cbList ∧
    (∀ k, (s.dmaStopIfBusy i).hasReq k = s.hasReq k) ∧
    ∀ k, completed .shutdown ((s.dmaStopIfBusy i).req k) = completed .shutdown (s.req k) := by
  obtain ⟨frame, reqs, calls⟩ := State.scrambleSlice_frame s i
  unfold State.dmaStopIfBusy
  split
  · rw [State.dmaStop_eq]
    have off : (s.scrambleSlice i).ShutFrame (((s.scrambleSlice i).modEp i fun e =>
        { e with
          chan := { e.chan with en := false, ie := false, eob := false, eoc := false, err := false, running := false }
          dmaBusy := false }).setDmaPending i false) := rfl
    refine ⟨(frame.trans off).trans (State.dropInflight_frame _ i), (State.dropInflight_calls _ i).trans calls,
      fun k => (State.dropInflight_hasReq _ i k).trans ?_, fun k => (State.dropInflight_req _ i k).trans ?_⟩
    · show (s.scrambleSlice i).hasReq k = s.hasReq k
      unfold State.hasReq
      rw [reqs]
    · exact congrArg (completed .shutdown) (State.req_congr reqs k)
  · exact ⟨rfl, rfl, fun _ => rfl, fun _ => rfl⟩

theorem State.dmaStopIfBusy_rx (s : State) (i : EpIx) :
    RxLeft (s.openSlice i) (s.ep i).fifo.rx ((s.dmaStopIfBusy i).ep i).fifo.rx := by
  unfold State.dmaStopIfBusy State.openSlice
  split
  · obtain ⟨-, -, -, left, -⟩ := State.scrambleSlice_spec s i
    rw [State.dmaStop_eq, State.dropInflight_ep, State.setDmaPending_ep, State.modEp_ep_same]
    exact left
  · exact ⟨0, Nat.le_refl 0, rfl⟩

/-- An endpoint masked, its channel stopped and its queue cancelled with `Shutdown` (R124, R280). -/
def State.shutOff (s : State) (i : EpIx) : State := ((s.maskEpIrq i).dmaStopIfBusy i).cancelAll i .shutdown

theorem State.drain_frame (s : State) (i : EpIx) (r : Result) : s.ShutFrame (s.drain i r) := by
  obtain ⟨-, -, -, -, -, rest⟩ := State.drain_spec s i r
  exact State.ShutFrame.of_eq rest

theorem State.cancelAll_frame (s : State) (i : EpIx) (r : Result) : s.ShutFrame (s.cancelAll i r) :=
  have owed : (s.drain i r).ShutFrame (s.cancelAll i r) := rfl
  (State.drain_frame s i r).trans owed

theorem State.shutOff_ep_same (s : State) (i : EpIx) : ∃ rx, RxLeft (s.openSlice i) (s.ep i).fifo.rx rx ∧
    (s.shutOff i).ep i = { s.ep i with
      queue := []
      txnullpkt := false
      irqEn := false
      dmaBusy := false
      ctl := ⟨(s.ep i).ctl.enable, (s.ep i).ctl.txpktrdy, (s.ep i).ctl.forcestall, false, false, false, false,
        (s.ep i).ctl.mps⟩
      chan := (s.ep i).stoppedChan false
      fifo := { (s.ep i).fifo with rx := rx } } := by
  obtain ⟨rx, stopped⟩ := State.maskEpIrq_stop_ep_same s i
  have left := State.dmaStopIfBusy_rx (s.maskEpIrq i) i
  rw [State.maskEpIrq_openSlice, stopped, State.maskEpIrq_ep, if_pos rfl] at left
  refine ⟨rx, left, ?_⟩
  unfold State.shutOff
  rw [State.cancelAll_ep_same, stopped]

theorem State.shutOff_shut (s : State) (i : EpIx) : State.EpsShut [i] s (s.shutOff i) := by
  obtain ⟨stopFrame, stopCalls, stopHas, stopReq⟩ := State.dmaStopIfBusy_spec (s.maskEpIrq i) i
  have memory := State.dmaStopIfBusy_memory (s.maskEpIrq i) i
  have frame := (EpFrame.start i s).maskEpIrq.dmaStopIfBusy
  have queue : (((s.maskEpIrq i).dmaStopIfBusy i).ep i).queue = (s.ep i).queue := by
    obtain ⟨rx, stopped⟩ := State.maskEpIrq_stop_ep_same s i
    rw [stopped]
  rw [State.maskEpIrq_openSlice, State.maskEpIrq_ep, if_pos rfl] at memory
  obtain ⟨-, -, calls, req, handles, -⟩ := State.drain_spec ((s.maskEpIrq i).dmaStopIfBusy i) i .shutdown
  rw [queue] at calls req
  have masked : s.ShutFrame (s.maskEpIrq i) := rfl
  refine ⟨(masked.trans stopFrame).trans (State.cancelAll_frame _ i _), ?_, fun h => ?_,
    fun h hh => ?_, fun j h hj hh hr => ?_, fun a ha => ?_⟩
  · rw [List.flatMap_singleton, ← show (s.maskEpIrq i).cbList = s.cbList from rfl, ← stopCalls]
    exact calls
  · exact (State.hasReq_congr handles h).trans (stopHas h)
  · have notQueued := hh i List.mem_cons_self
    refine (req h).trans ?_
    rw [if_neg fun e => notQueued e.1]
    exact frame.requests h notQueued
  · rw [List.mem_singleton.mp hj] at hh
    refine (req h).trans ?_
    rw [if_pos ⟨hh, (stopHas h).trans hr⟩]
    exact stopReq h
  · show readByte (State.cancelAll _ i .shutdown).mem a = _
    rw [State.cancelAll_mem]
    exact memory a (ha i List.mem_cons_self)

theorem State.shutOff_other (s : State) (i j : EpIx) (hj : j ≠ i) : (s.shutOff i).ep j = s.ep j :=
  (EpFrame.start i s).maskEpIrq.dmaStopIfBusy.cancelAll .shutdown |>.other j hj

theorem State.othersHeld_congr (cfg : t.cfg = s.cfg) (other : ∀ j, j ≠ i → t.ep j = s.ep j) :
    t.othersHeld i = s.othersHeld i := by
  have eps : t.epList = s.epList := by unfold State.epList; rw [cfg]
  unfold State.othersHeld
  rw [eps]
  congr 1
  funext k
  by_cases hk : k = i
  · simp [hk]
  · rw [other k hk]

/-! ### DISABLE_ENDPOINT and FREE_ENDPOINT (O17) -/

/-- A disabled endpoint, with `rx` left of its received bytes (R124). -/
def Endpoint.disabled (rx : List Byte) (e : Endpoint) : Endpoint :=
  { e with
    state := .disabled
    stalled := false
    halted := false
    txnullpkt := false
    rxpend := false
    queue := []
    irqEn := false
    dmaBusy := false
    ctl := ⟨false, false, false, false, false, false, false, e.ctl.mps⟩
    chan := e.stoppedChan false
    fifo := { e.fifo with fill := [], tx := [], rx := rx } }

/-- An endpoint without its held packet and with its transmit banks empty. -/
def Endpoint.emptied (e : Endpoint) : Endpoint :=
  { e with
    rxpend := false
    ctl := { e.ctl with txpktrdy := false }
    fifo := { e.fifo with fill := [], tx := [] } }

theorem State.modDev_withdrawTx (s : State) (i : EpIx) (f : Device → Device) :
    (s.modDev f).withdrawTx i = (s.withdrawTx i).modDev f := rfl

/-- Writing an endpoint, then giving up a held packet and the transmit banks. -/
theorem State.giveUp_eq (s : State) (i : EpIx) (g : Endpoint → Endpoint) :
    ((s.modEp i g).setRxpend i false).withdrawTx i =
      (s.modEp i fun e => (g e).emptied).modDev fun d => { d with rxpending := s.othersHeld i } := by
  rw [State.setRxpend_false, State.othersHeld_modEp]
  rw [State.modDev_withdrawTx, State.withdrawTx, State.modEp_modEp, State.modEp_modEp]
  rfl

/-- The record of an endpoint that disabling it writes once it is shut off (R124). -/
def Endpoint.off (e : Endpoint) : Endpoint :=
  { e with
    state := .disabled, stalled := false, halted := false, txnullpkt := false
    ctl := { e.ctl with enable := false, forcestall := false } }

/-- Disabling an endpoint is shutting it off, then writing its record and EP0's data stage (R124). -/
theorem State.disableEp_eq (s : State) (i : EpIx) :
    s.disableEp i = ((s.shutOff i).modEp i fun e => e.off.emptied).modDev fun d =>
      { d with rxpending := s.othersHeld i, scratchCount := if i = 0 then 0 else d.scratchCount } := by
  have shut : ((s.shutOff i).modEp i Endpoint.off |>.setRxpend i false).withdrawTx i =
      ((s.shutOff i).modEp i fun e => e.off.emptied).modDev fun d => { d with rxpending := s.othersHeld i } := by
    rw [State.giveUp_eq, State.othersHeld_congr (State.shutOff_shut s i).frame.cfg (State.shutOff_other s i)]
  have unfolded : s.disableEp i =
      if i = 0 then (((s.shutOff i).modEp i Endpoint.off |>.setRxpend i false).withdrawTx i).modDev
        fun d => { d with scratchCount := 0 }
      else ((s.shutOff i).modEp i Endpoint.off |>.setRxpend i false).withdrawTx i := rfl
  rw [unfolded, shut]
  split <;> rfl

theorem State.disableEp_ep_same (s : State) (i : EpIx) : ∃ rx, RxLeft (s.openSlice i) (s.ep i).fifo.rx rx ∧
    (s.disableEp i).ep i = (s.ep i).disabled rx := by
  obtain ⟨rx, left, ep⟩ := State.shutOff_ep_same s i
  refine ⟨rx, left, ?_⟩
  rw [State.disableEp_eq]
  show ((s.shutOff i).modEp i fun e => e.off.emptied).ep i = _
  rw [State.modEp_ep_same, ep]
  rfl

theorem State.disableEp_dev (s : State) (i : EpIx) : (s.disableEp i).dev = { s.dev with
    rxpending := s.othersHeld i
    scratchCount := if i = 0 then 0 else s.dev.scratchCount } := by
  rw [State.disableEp_eq]
  show { (s.shutOff i).dev with
    rxpending := s.othersHeld i, scratchCount := if i = 0 then 0 else (s.shutOff i).dev.scratchCount } = _
  rw [(State.shutOff_shut s i).frame.dev]

theorem State.disableEp_log (s : State) (i : EpIx) : (s.disableEp i).log = s.log := by
  rw [State.disableEp_eq]
  exact (State.shutOff_shut s i).frame.log

theorem State.disableEp_drainedTo (s : State) (i : EpIx) : State.drainedTo i .shutdown s (s.disableEp i) := by
  have shut := State.shutOff_shut s i
  refine ⟨?_, ?_, fun h hh hr => ?_⟩
  · obtain ⟨rx, -, ep⟩ := State.disableEp_ep_same s i
    rw [ep]
    rfl
  · rw [State.disableEp_eq]
    have calls := shut.calls
    rw [List.flatMap_singleton] at calls
    exact calls
  · rw [State.disableEp_eq]
    exact shut.done i h List.mem_cons_self hh hr

theorem exec_disableEndpoint (i : EpIx) (s : State) : exec (.disableEndpoint i) s = execDisableEndpoint i s := rfl
theorem exec_freeEndpoint (i : EpIx) (s : State) : exec (.freeEndpoint i) s = execFreeEndpoint i s := rfl

/-- Settles O17: the endpoint is shut off (`State.shutOff_shut`), and then its record is written. -/
theorem disableShutsTheEndpointDown : Obligations.DisableShutsTheEndpointDown := by
  intro i s
  have disabled : s.validEp i = true → exec (.disableEndpoint i) s = .next ((s.disableEp i).answer .ok) := by
    intro hv
    rw [exec_disableEndpoint, execDisableEndpoint, hv]
    rfl
  refine ⟨fun hv => ?_, fun hv => ?_, fun bad => ?_, fun h0 hv hr => ?_⟩
  · rw [exec_disableEndpoint, execDisableEndpoint, hv]
    rfl
  · obtain ⟨rx, left, ep⟩ := State.disableEp_ep_same s i
    have ep' : ((s.disableEp i).answer .ok).ep i = (s.ep i).disabled rx := ep
    refine ⟨_, disabled hv, rfl, ?_, State.disableEp_drainedTo s i, State.disableEp_log s i, State.disableEp_dev s i, ?_, ?_,
      State.disableEp_memory s i⟩
    · exact { (EpFrame.start i s).disableEp with }
    · rw [ep']; rfl
    · rw [ep']; exact left
  · rw [exec_freeEndpoint, execFreeEndpoint]
    rcases bad with h | h | h <;> simp [h, State.answer]
  · refine ⟨_, ((s.disableEp i).modEp i fun e => { e with reserved := false }).answer .ok, disabled hv, ?_, rfl, ?_,
      fun j hj => ?_⟩
    · rw [exec_freeEndpoint, execFreeEndpoint]
      simp [h0, hv, hr]
    · exact State.modEp_ep_same (s.disableEp i) i fun e => { e with reserved := false }
    · exact (State.modEp_ep_other (s.disableEp i) i j (fun e => { e with reserved := false }) hj).trans ((EpFrame.start i s).disableEp.other j hj)

end Sys2Proof.Machine
end

section
/-! SUPPORT. A bus reset (O37): every endpoint shut down by increasing number, the others disabled, EP0 at its default
descriptor, and the Device record, `DEV_ADDR` and `INT_ENABLE` at their defaults. -/

namespace Sys2Proof.Machine

variable {s : State} {i : EpIx}

theorem State.resetEp_shut (i : EpIx) (s : State) : State.EpsShut [i] s (s.resetEp i) := by
  have unfolded : s.resetEp i = (((s.shutOff i).modEp i fun e =>
    { e with stalled := false, halted := false, txnullpkt := false,
             ctl := { e.ctl with forcestall := false } }).setRxpend i false).withdrawTx i := rfl
  rw [unfolded, State.giveUp_eq]
  exact (State.shutOff_shut s i).congr rfl rfl rfl rfl

theorem State.resetAll_shut (s : State) : State.EpsShut s.epList s s.resetAll :=
  State.EpsShut.forEps State.resetEp_shut (fun i s => (EpFrame.start i s).resetEp.other) s.epList_nodup s

/-- Writing endpoints alone. -/
def State.EpsOnly (s t : State) : Prop := t = { s with eps := t.eps }

theorem State.disableOthers_epsOnly (s : State) : s.EpsOnly s.disableOthers :=
  UpdateClosed.forEps (P := s.EpsOnly) (f := fun i s => s.disableAfterReset i)
    (fun i t (e : t = { s with eps := t.eps }) => (congrArg (State.disableAfterReset · i) e :)) _ rfl

theorem State.defaultEp0_epsOnly (s : State) : s.EpsOnly s.defaultEp0 := by
  unfold State.defaultEp0
  dsimp only
  rw [State.unmaskEpIrq_eq]
  rfl

theorem State.EpsOnly.shutFrame {s t : State} (e : s.EpsOnly t) : s.ShutFrame t := by
  unfold State.EpsOnly at e
  rw [e]
  rfl

/-- The endpoints once a bus reset has shut them down and disabled or configured them, before the Device record. -/
def State.resetEps (s : State) : State := s.resetAll.disableOthers.defaultEp0

theorem State.resetEps_shut (s : State) : State.EpsShut s.epList s s.resetEps := by
  have others := State.disableOthers_epsOnly s.resetAll
  have ep0 := State.defaultEp0_epsOnly s.resetAll.disableOthers
  have disabled := s.resetAll_shut.congr others.shutFrame (State.disableOthers_reqs _) (congrArg State.cbList others :)
    (congrArg State.mem others :)
  exact disabled.congr ep0.shutFrame (State.defaultEp0_reqs _) (congrArg State.cbList ep0 :) (congrArg State.mem ep0 :)

theorem State.busReset_eq_resetEps (s : State) : s.busReset = s.noteBusReset.resetEps.defaultDevice := rfl

theorem State.noteBusReset_eq (s : State) : s.noteBusReset = { s with
    intPending := { s.intPending with busreset := false }
    cbList := s.cbList ++ if s.dev.driver = nullRef then [] else [.onDisconnect] } := by
  unfold State.noteBusReset State.notify
  split
  · rw [List.append_nil]
  · rfl

theorem State.noteBusReset_epList (s : State) : s.noteBusReset.epList = s.epList := by
  rw [State.noteBusReset_eq]
  rfl

/-- What a bus reset leaves of the machine but for its endpoints and requests. -/
theorem State.busReset_rest (s : State) : s.busReset = { s with
    eps := s.busReset.eps, reqs := s.busReset.reqs, cbList := s.busReset.cbList, mem := s.busReset.mem
    draws := s.busReset.draws
    intPending := { s.intPending with busreset := false, dma := s.busReset.intPending.dma }
    intEnable := ⟨true, s.cfg.sofIrqEn, true, true, true, 0xFFFF⟩
    devAddr := ⟨0, false⟩
    devCtl := { s.devCtl with clkgate := false }
    dev := { s.dev with
      state := .default, addr := 0, pendingAddr := 0, scratchCount := 0, rxpending := false, rwake := false
      clkGated := false } } := by
  have shut := (State.resetEps_shut s.noteBusReset).frame.eq
  rw [State.busReset_eq_resetEps]
  generalize s.noteBusReset.resetEps = u at shut ⊢
  conv_lhs => rw [shut, State.noteBusReset_eq]
  rfl

/-- The requests, callbacks and memory a bus reset leaves. -/
theorem State.busReset_shut (s : State) :
    s.busReset.cbList = s.cbList ++ (if s.dev.driver = nullRef then [] else [.onDisconnect]) ++
      s.epList.flatMap (fun i => (s.ep i).queue.map fun h => .done i h .shutdown) ∧
    (∀ h, (∀ i, s.validEp i = true → h ∉ (s.ep i).queue) → s.busReset.req h = s.req h) ∧
    (∀ i h, s.validEp i = true → h ∈ (s.ep i).queue → s.hasReq h = true →
      s.busReset.req h = completed .shutdown (s.req h)) ∧
    ∀ a : Nat, (∀ i : EpIx, s.validEp i = true → ∀ k, k < s.openSlice i →
      a ≠ ((s.ep i).chan.addr + BitVec.ofNat 32 k).toNat) → readByte s.busReset.mem a = readByte s.mem a := by
  have shut := State.resetEps_shut s.noteBusReset
  rw [State.busReset_eq_resetEps]
  generalize s.noteBusReset.resetEps = u at shut ⊢
  have req : ∀ k, s.noteBusReset.req k = s.req k := State.req_congr (by rw [State.noteBusReset_eq])
  have hasReq : ∀ k, s.noteBusReset.hasReq k = s.hasReq k := fun k => by rw [State.noteBusReset_eq]; rfl
  have calls : s.noteBusReset.cbList = s.cbList ++ if s.dev.driver = nullRef then [] else [.onDisconnect] := by
    rw [State.noteBusReset_eq]
  have mem : s.noteBusReset.mem = s.mem := by rw [State.noteBusReset_eq]
  have ep := s.noteBusReset_ep
  have slice : ∀ i, s.noteBusReset.openSlice i = s.openSlice i := fun i => State.openSlice_congr (ep i)
  obtain ⟨-, called, -, untouched, done, memory⟩ := shut
  rw [State.noteBusReset_epList] at called untouched done memory
  simp only [ep, req, hasReq, calls, mem, slice, State.mem_epList] at called untouched done memory
  exact ⟨called, untouched, done, memory⟩

theorem State.handle_busReset (s : State) : s.handle .busReset = s.busReset := rfl

/-- Settles O37: the endpoints' records (`State.busReset_ep_zero`, `State.busReset_ep_valid`), and what shutting them
down one after another leaves of the rest (`State.busReset_shut`). -/
theorem busResetRestoresTheDefaultState : Obligations.BusResetRestoresTheDefaultState := by
  intro s pos
  have valid0 := State.validEp_zero pos
  obtain ⟨rx0, ep0⟩ := s.busReset_ep_zero valid0
  obtain ⟨calls, untouched, done, memory⟩ := s.busReset_shut
  have ep : ∀ i, s.validEp i = false ∨ (∃ rx, s.busReset.ep i = (s.ep i).afterReset rx) ∨
      (∃ rx, s.busReset.ep i = (s.ep i).defaultEp0 s.cfg rx) := by
    intro i
    cases hv : s.validEp i with
    | false => exact .inl rfl
    | true =>
      by_cases h0 : i = 0
      · subst h0; exact .inr (.inr ⟨rx0, ep0⟩)
      · exact .inr (.inl (s.busReset_ep_valid h0 hv))
  have invalid : ∀ i, s.validEp i = false → s.busReset.ep i = s.ep i := fun i hv =>
    s.busReset_ep_invalid (fun h0 => by rw [h0, valid0] at hv; cases hv) hv
  refine ⟨fun i => ?_, fun i hv => ?_, fun i h0 hv => ?_, invalid, ?_, ?_, ?_, ?_, ?_, ?_, ?_, calls, s.busReset_rest,
    untouched, done, memory⟩
  · show (s.busReset.ep i).reserved = _
    rcases ep i with hv | ⟨rx, e⟩ | ⟨rx, e⟩
    · rw [invalid i hv]
    · rw [e]; rfl
    · rw [e]; rfl
  · rw [State.handle_busReset]
    rcases ep i with hv' | ⟨rx, e⟩ | ⟨rx, e⟩
    · rw [hv] at hv'; cases hv'
    · rw [e]; exact ⟨rfl, rfl, rfl, rfl, rfl, rfl, rfl, rfl, rfl, rfl⟩
    · rw [e]; exact ⟨rfl, rfl, rfl, rfl, rfl, rfl, rfl, rfl, rfl, rfl⟩
  · obtain ⟨rx, e⟩ := s.busReset_ep_valid h0 hv
    rw [State.handle_busReset, e]
    exact ⟨rfl, rfl, rfl⟩
  all_goals
    rw [State.handle_busReset, ep0]
    rfl

end Sys2Proof.Machine
end

section
/-! SUPPORT. The words `INT_PENDING` and `INT_ENABLE` bit by bit, and the sample of a pass (O8). -/

namespace Sys2Proof.Machine

/-! ### The interrupt words -/

/-- The layout the two interrupt words share (R100): five device bits from bit 0, the endpoints from 16, the channels from
32. -/
def interruptWord (dma eps : BitVec 16) (upresume busreset resume sof suspend : Bool) : BitVec 48 :=
  dma ++ eps ++ 0#11 ++ BitVec.ofBool upresume ++ BitVec.ofBool busreset ++ BitVec.ofBool resume ++ BitVec.ofBool sof ++
    BitVec.ofBool suspend

theorem State.intPendingWord_eq (s : State) : s.intPendingWord = interruptWord s.intPending.dma
    (maskOf fun i => s.validEp i && (s.ep i).pending) s.intPending.upresume s.intPending.busreset s.intPending.resume
    s.intPending.sof s.intPending.suspend := rfl

theorem State.intEnableWord_eq (s : State) : s.intEnableWord = interruptWord s.intEnable.dma
    (maskOf fun i => (s.ep i).irqEn) s.intEnable.upresume s.intEnable.busreset s.intEnable.resume s.intEnable.sof
    s.intEnable.suspend := rfl

section
variable (dma eps : BitVec 16) (up rst res sof sus : Bool)

theorem interruptWord_device : (interruptWord dma eps up rst res sof sus).getLsbD 0 = sus ∧
    (interruptWord dma eps up rst res sof sus).getLsbD 1 = sof ∧
    (interruptWord dma eps up rst res sof sus).getLsbD 2 = res ∧
    (interruptWord dma eps up rst res sof sus).getLsbD 3 = rst ∧
    (interruptWord dma eps up rst res sof sus).getLsbD 4 = up := by
  simp only [interruptWord, BitVec.getLsbD_append]
  simp

/-- Above the five device bits and the reserved ones the word is the endpoints' and the channels' bits. -/
theorem interruptWord_high (k : Nat) : (interruptWord dma eps up rst res sof sus).getLsbD (16 + k) =
    (dma ++ eps).getLsbD k := by
  rw [interruptWord, BitVec.getLsbD_append, if_neg (by omega), BitVec.getLsbD_append, if_neg (by omega),
    BitVec.getLsbD_append, if_neg (by omega), BitVec.getLsbD_append, if_neg (by omega), BitVec.getLsbD_append,
    if_neg (by omega), BitVec.getLsbD_append, if_neg (by omega)]
  congr 1
  omega

theorem interruptWord_ep (i : EpIx) : (interruptWord dma eps up rst res sof sus).getLsbD (16 + i.val) =
    eps.getLsbD i.val := by
  rw [interruptWord_high, BitVec.getLsbD_append, if_pos i.isLt]

theorem interruptWord_dma (c : EpIx) : (interruptWord dma eps up rst res sof sus).getLsbD (32 + c.val) =
    dma.getLsbD c.val := by
  rw [show 32 + c.val = 16 + (16 + c.val) by omega, interruptWord_high, BitVec.getLsbD_append, if_neg (by omega),
    Nat.add_sub_cancel_left]

end

theorem mem_allIx : ∀ i : EpIx, i ∈ allIx := by decide

theorem maskOf_getLsbD (f : EpIx → Bool) (i : EpIx) : (maskOf f).getLsbD i.val = f i := by
  have folded : ∀ (l : List EpIx) (m : BitVec 16),
      (l.foldl (fun m i => if f i then m ||| BitVec.twoPow 16 i.val else m) m).getLsbD i.val =
        (m.getLsbD i.val || (decide (i ∈ l) && f i)) := by
    intro l
    induction l with
    | nil => simp
    | cons a rest ih =>
      intro m
      rw [List.foldl_cons, ih]
      by_cases ha : i = a
      · subst ha
        cases f i <;> simp
      · have ne : a.val ≠ i.val := fun e => ha (Fin.ext e.symm)
        cases hf : f a
        · simp [ha]
        · simp [ha, ne.symm]
  have all : i ∈ allIx := mem_allIx i
  rw [maskOf, folded]
  simp [all]

/-! ### The sample -/

theorem mem_allSources (b : Source) : b ∈ allSources := by
  cases b with
  | dma c => simp [allSources, mem_allIx]
  | ep i => simp [allSources, mem_allIx]
  | _ => simp [allSources]

theorem allSources_pairwise : allSources.Pairwise fun a b => a.rank < b.rank := by decide

/-- An endpoint's bit in `INT_PENDING` (R304). -/
theorem Endpoint.pending_iff (e : Endpoint) : e.pending = true ↔
    (e.sta.txdone = true ∧ e.ctl.txdoneIe = true) ∨ (e.sta.rxrdy = true ∧ e.ctl.rxrdyIe = true) ∨
      (e.sta.stallsent = true ∧ e.ctl.stallsentIe = true) ∨ (e.sta.setup = true ∧ e.ctl.setupIe = true) := by
  unfold Endpoint.pending Endpoint.enabledSta
  simp [or_assoc]

/-- Settles O8: the sources stand in the order of their ranks, and every bit of the two words is the field it shows. -/
theorem sampleHoldsPendingSourcesInOrder : Obligations.SampleHoldsPendingSourcesInOrder := by
  intro s
  have pend := interruptWord_device s.intPending.dma (maskOf fun i => s.validEp i && (s.ep i).pending)
    s.intPending.upresume s.intPending.busreset s.intPending.resume s.intPending.sof s.intPending.suspend
  have enab := interruptWord_device s.intEnable.dma (maskOf fun i => (s.ep i).irqEn)
    s.intEnable.upresume s.intEnable.busreset s.intEnable.resume s.intEnable.sof s.intEnable.suspend
  rw [← s.intPendingWord_eq] at pend
  rw [← s.intEnableWord_eq] at enab
  have pendEp : ∀ i : EpIx, s.intPendingWord.getLsbD (16 + i.val) = (s.validEp i && (s.ep i).pending) := fun i => by
    rw [s.intPendingWord_eq, interruptWord_ep, maskOf_getLsbD]
  have enabEp : ∀ i : EpIx, s.intEnableWord.getLsbD (16 + i.val) = (s.ep i).irqEn := fun i => by
    rw [s.intEnableWord_eq, interruptWord_ep, maskOf_getLsbD]
  have pendDma : ∀ c : EpIx, s.intPendingWord.getLsbD (32 + c.val) = s.intPending.dma.getLsbD c.val := fun c => by
    rw [s.intPendingWord_eq, interruptWord_dma]
  have enabDma : ∀ c : EpIx, s.intEnableWord.getLsbD (32 + c.val) = s.intEnable.dma.getLsbD c.val := fun c => by
    rw [s.intEnableWord_eq, interruptWord_dma]
  obtain ⟨pendSuspend, pendSof, pendResume, pendReset, pendUp⟩ := id pend
  obtain ⟨enabSuspend, enabSof, enabResume, enabReset, enabUp⟩ := id enab
  refine ⟨allSources_pairwise.filter _, fun b => ?_, fun b => ?_, pend, enab,
    fun i => ⟨?_, pendDma i, enabEp i, enabDma i⟩⟩
  · simp [State.sample, mem_allSources]
  · cases b with
    | suspend => simp only [State.stillPending, Source.bit, pendSuspend, enabSuspend, Bool.and_true]
    | sof => simp only [State.stillPending, Source.bit, pendSof, enabSof, Bool.and_true]
    | resume => simp only [State.stillPending, Source.bit, pendResume, enabResume, Bool.and_true]
    | busReset => simp only [State.stillPending, Source.bit, pendReset, enabReset, Bool.and_true]
    | upResume => simp only [State.stillPending, Source.bit, pendUp, enabUp, Bool.and_true]
    | ep i => simp only [State.stillPending, Source.bit, pendEp, enabEp, Bool.and_true]
    | dma c => simp only [State.stillPending, Source.bit, pendDma, enabDma]
  · rw [pendEp, Bool.and_eq_true, Endpoint.pending_iff]

end Sys2Proof.Machine
end

section
/-! SUPPORT. Engine initialisation (O9), the class driver's requests (O10), and the checks of SUBMIT and
CONFIGURE_ENDPOINT (O11). -/

namespace Sys2Proof.Machine

variable {s : State} {i : EpIx} {h : Ref}

/-! ### Initialisation (O9) -/

theorem State.init_ep (p : Params) (i : EpIx) :
    (State.init p).ep i = if i = 0 then Endpoint.reset0 else Endpoint.reset := by
  show ((Vector.replicate 16 Endpoint.reset).set 0 Endpoint.reset0).get i = _
  by_cases h0 : i = 0
  · subst h0; rfl
  · have ne : ¬ 0 = i.val := fun e => h0 (Fin.ext e.symm)
    rw [if_neg h0]
    exact (Vector.getElem_set_ne _ _ ne).trans (Vector.getElem_replicate _)

theorem maskOf_false (f : EpIx → Bool) (h : ∀ i, f i = false) : maskOf f = 0 := by
  rw [show f = fun _ => false from funext h]
  rfl

theorem Endpoint.reset_irqEn (i : EpIx) : (if i = 0 then Endpoint.reset0 else Endpoint.reset).irqEn = false := by
  split <;> rfl

theorem Endpoint.reset_pending (i : EpIx) : (if i = 0 then Endpoint.reset0 else Endpoint.reset).pending = false := by
  split <;> rfl

/-- Settles O9: the endpoints' records are the two of `State.init_ep`, and the words are built from zero bits. -/
theorem initialisationValues : Obligations.InitialisationValues := by
  refine ⟨rfl, fun p => ?_⟩
  have pending : (State.init p).intPendingWord = 0 := by
    rw [State.intPendingWord_eq, maskOf_false _ fun i => by rw [State.init_ep, Endpoint.reset_pending, Bool.and_false]]
    show interruptWord 0 0 false false false false false = 0
    decide
  have enable : (State.init p).intEnableWord = if p.sofIrqEn then 0xFFFF0000001F else 0xFFFF0000001D := by
    rw [State.intEnableWord_eq, maskOf_false _ fun i => by rw [State.init_ep, Endpoint.reset_irqEn]]
    show interruptWord 0xFFFF 0 true true true p.sofIrqEn true = _
    cases p.sofIrqEn <;> decide
  refine ⟨fun i => ?_, rfl, rfl, rfl, rfl, rfl, rfl, rfl, rfl, rfl, rfl, rfl, rfl, rfl, pending, enable,
    (by decide : DevAddr.word ⟨0, false⟩ = 0), (by decide : DevCtl.word ⟨false, false, false⟩ = 0), rfl, rfl⟩
  rw [State.init_ep]
  by_cases h0 : i = 0
  · rw [if_pos h0, h0]
    decide
  · rw [if_neg h0]
    simp only [h0, decide_false]
    decide

/-! ### The engine's requests (R31) -/

theorem Callback.completes_iff (h : Ref) (c : Callback) : c.completes h = true ↔ ∃ k r, c = .done k h r := by
  cases c with
  | done k h' r =>
    simp only [Callback.completes, decide_eq_true_eq, Callback.done.injEq]
    exact ⟨fun e => ⟨k, r, rfl, e, rfl⟩, fun ⟨_, _, _, e, _⟩ => e⟩
  | _ => simp [Callback.completes]

/-- A completion callback of the request waits: collected in this step, or not delivered yet. -/
theorem State.undelivered_iff (s : State) (h : Ref) :
    s.undelivered h = true ↔ ∃ k r, .done k h r ∈ s.cbList ∨ .pending (.done k h r) ∈ s.stack := by
  unfold State.undelivered
  rw [Bool.or_eq_true, List.any_eq_true, List.any_eq_true]
  constructor
  · rintro (⟨c, hc, hh⟩ | ⟨c, hc, hh⟩)
    · obtain ⟨k, r, rfl⟩ := (Callback.completes_iff h c).mp hh
      exact ⟨k, r, .inl hc⟩
    · cases c with
      | pending c =>
        obtain ⟨k, r, rfl⟩ := (Callback.completes_iff h c).mp hh
        exact ⟨k, r, .inr hc⟩
      | active c => cases hh
      | dispatch rest => cases hh
  · rintro ⟨k, r, hc | hc⟩
    · exact .inl ⟨_, hc, (Callback.completes_iff h _).mpr ⟨k, r, rfl⟩⟩
    · exact .inr ⟨_, hc, (Callback.completes_iff h _).mpr ⟨k, r, rfl⟩⟩

theorem State.engineOwns_iff (s : State) (h : Ref) : s.engineOwns h = true ↔
    (s.req h).owner = .engine ∨ ∃ k r, .done k h r ∈ s.cbList ∨ .pending (.done k h r) ∈ s.stack := by
  rw [State.engineOwns, Bool.or_eq_true, decide_eq_true_eq, State.undelivered_iff]

/-! ### Making, destroying and setting records (O10) -/

theorem State.modReq_of_not_hasReq (s : State) (h : Ref) (f : Request → Request) (hr : s.hasReq h = false) :
    s.modReq h f = s := by
  have none : ∀ p ∈ s.reqs, (if p.1 = h then (p.1, f p.2) else p) = p := fun p hp => if_neg fun e => by
    have known := (State.hasReq_iff s h).mpr (e ▸ List.mem_map_of_mem (f := Prod.fst) hp)
    rw [hr] at known
    cases known
  show ({ s with reqs := s.reqs.map fun p => if p.1 = h then (p.1, f p.2) else p } : State) = s
  rw [List.map_congr_left none, List.map_id']

theorem exec_allocateRequest (s : State) : exec .allocateRequest s = execAllocateRequest s := rfl
theorem exec_freeRequest (i : EpIx) (h : Ref) (s : State) : exec (.freeRequest i h) s = execFreeRequest i h s := rfl

/-- With no callback or dispatcher pass to go on with, the class driver's action is the step. -/
theorem step_of_setReq {buf : Word} {len : Len} {nullpkt : Bool} {cb : Ref} {rest : List Input}
    (hs : s.stack = [] ∨ ∃ c below, s.stack = .active c :: below) (hi : s.input = .setReq h buf len nullpkt cb :: rest) :
    step s = setRequest h buf len nullpkt cb { s with input := rest } := by
  have acts : step s = environmentStep s := by
    unfold step machineStep
    rcases hs with e | ⟨c, below, e⟩ <;> rw [e]
  rw [acts]
  unfold environmentStep
  rw [hi]

/-- Settles O10: one clause for each branch of the three rules. -/
theorem requestRecordsAreMadeAndDestroyed : Obligations.RequestRecordsAreMadeAndDestroyed := by
  intro i h s owned
  have owns : s.engineOwns h = true ↔ owned := s.engineOwns_iff h
  refine ⟨fun pool hn => ?_, fun pool => ?_, fun bad => ?_, fun hn hr ho => ?_, fun hn hr ho => ?_,
    fun buf len nullpkt cb rest hs hi => ⟨fun hr ho => ?_, fun hr ho => ?_, fun hr => ?_⟩⟩
  · rw [exec_allocateRequest, execAllocateRequest, pool, decide_eq_true hn]
    rfl
  · have fails : (s.reqPool.headD true && decide (s.nextReq ≠ nullRef)) = false := by
      rcases pool with e | e
      · rw [e, Bool.false_and]
      · simp only [e, ne_eq, not_true_eq_false, decide_false, Bool.and_false]
    rw [exec_allocateRequest, execAllocateRequest, fails]
    rfl
  · rw [exec_freeRequest, execFreeRequest, if_pos bad]
    rfl
  · rw [exec_freeRequest, execFreeRequest, if_neg (by simp [hn, hr]), if_pos (owns.mpr ho)]
  · refine ⟨(s.withoutReq h).answer .ok, ?_, rfl, ?_, fun k hk => ⟨?_, ?_⟩⟩
    · rw [exec_freeRequest, execFreeRequest, if_neg (by simp [hn, hr]), if_neg (mt owns.mp ho)]
      rfl
    · exact (s.withoutReq_hasReq h h).trans (by simp)
    · exact (s.withoutReq_hasReq h k).trans (by simp [hk])
    · exact (s.withoutReq_req h k).trans (if_neg hk)
  · have held : (s.hasReq h && s.engineOwns h) = true := Bool.and_eq_true_iff.mpr ⟨hr, owns.mpr ho⟩
    exact (step_of_setReq hs hi).trans (if_pos held)
  · have free : ¬ (s.hasReq h && s.engineOwns h) = true := fun e => ho (owns.mp (Bool.and_eq_true_iff.mp e).2)
    refine ⟨_, (step_of_setReq hs hi).trans (if_neg free), rfl, ?_, fun k hk => ?_⟩
    · exact State.modReq_req_same { s with input := rest } h _ hr
    · exact State.modReq_req_other { s with input := rest } h k _ hk
  · have free : ¬ (s.hasReq h && s.engineOwns h) = true := by rw [hr, Bool.false_and]; decide
    exact ((step_of_setReq hs hi).trans (if_neg free)).trans
      (congrArg _ (State.modReq_of_not_hasReq { s with input := rest } h _ hr))

/-! ### The checks (O11) -/

theorem exec_submit (i : EpIx) (h : Ref) (s : State) : exec (.submit i h) s = execSubmit i h s := rfl
theorem exec_configureEndpoint (i : EpIx) (d : EpDesc) (s : State) :
    exec (.configureEndpoint i d) s = execConfigureEndpoint i d s := rfl

theorem State.inTransfer_iff (s : State) (i : EpIx) : s.inTransfer i = true ↔
    (s.ep i).state ≠ .disabled ∧ (s.ep i).state ≠ .stalled ∧ (s.ep i).state ≠ .idle := by
  unfold State.inTransfer
  split <;> simp_all

/-- The endpoint is refused (R119). -/
theorem State.refused_iff (s : State) (i : EpIx) :
    (!s.validEp i || !(s.ep i).reserved) = true ↔ s.validEp i = false ∨ (s.ep i).reserved = false := by
  simp

/-- The request's operands are refused (R130). -/
def badOperands (s : State) (h : Ref) : Prop :=
  h = nullRef ∨ s.hasReq h = false ∨ (s.req h).callback = nullRef ∨ ((s.req h).buf = 0 ∧ (s.req h).len ≠ 0)

/-- The descriptor is refused (R120). -/
theorem badDesc_iff (i : EpIx) (d : EpDesc) :
    (decide (d.mps = 0) || (decide (i = 0) != decide (descType d = .control))) = true ↔
      d.mps = 0 ∨ ¬ (i = 0 ↔ descType d = .control) := by
  simp

/-- Settles O11: the checks are the conditions of the two rules' branches, in their order. -/
theorem submitAndConfigureCheckInOrder : Obligations.SubmitAndConfigureCheckInOrder := by
  refine ⟨fun i h s => ?_, fun i d s => ?_⟩
  · intro badEp badReq
    have badReq_iff : badReq ↔ badOperands s h ∨ s.engineOwns h = true := by
      rw [s.engineOwns_iff h, badOperands]
      simp only [badReq, or_assoc]
    refine ⟨fun bad => ?_, fun okEp okReq shut => ?_⟩
    · rw [exec_submit, execSubmit]
      dsimp only
      split
      · rfl
      · next okEp =>
        have bad := badReq_iff.mp (bad.resolve_left (mt (s.refused_iff i).mpr okEp))
        split
        · rfl
        · next okOperands =>
          rw [if_pos (bad.resolve_left okOperands)]
          rfl
    · obtain ⟨okOperands, free⟩ := not_or.mp (mt badReq_iff.mpr okReq)
      unfold badOperands at okOperands
      rw [exec_submit, execSubmit, if_neg (mt (s.refused_iff i).mp okEp)]
      dsimp only
      rw [if_neg okOperands, if_neg free, if_pos shut]
      rfl
  · intro badEp busy badDesc
    rw [exec_configureEndpoint, execConfigureEndpoint]
    refine ⟨fun bad => ?_, fun okEp hb => ?_, fun okEp hb bad => ?_, fun okEp hb okDesc geo => ?_⟩
    · rw [if_pos ((s.refused_iff i).mpr bad)]
      rfl
    · rw [if_neg (mt (s.refused_iff i).mp okEp), if_pos ((s.inTransfer_iff i).mpr hb)]
      rfl
    · rw [if_neg (mt (s.refused_iff i).mp okEp), if_neg (mt (s.inTransfer_iff i).mp hb),
        if_pos ((badDesc_iff i d).mpr bad)]
      rfl
    · have refused : (!s.geometryOk i (descType d) d.mps (s.epBanks i)) = true := by
        rw [Bool.not_eq_true']
        exact geo
      rw [if_neg (mt (s.refused_iff i).mp okEp), if_neg (mt (s.inTransfer_iff i).mp hb),
        if_neg (mt (badDesc_iff i d).mp okDesc), if_pos refused]
      rfl

end Sys2Proof.Machine
end

section
/-! SUPPORT. CONFIGURE_ENDPOINT: the endpoint as its descriptor programs it, and the start of its queue (O20). -/

namespace Sys2Proof.Machine

variable {s : State} {i : EpIx}

/-- The endpoint as CONFIGURE_ENDPOINT leaves it before its queue starts (R120). -/
def Endpoint.configured (i : EpIx) (d : EpDesc) (banks : Nat) (dma : Bool) (e : Endpoint) : Endpoint :=
  { e with
    dir := if i = 0 then .bidir else if d.epaddr.getLsbD 7 then .dirIn else .dirOut
    type := epTypeOfBits (d.attrs.extractLsb' 0 2)
    mps := d.mps
    banks := banks
    bank := 0
    state := .idle
    stalled := false
    halted := false
    txnullpkt := false
    rxpend := false
    irqEn := true
    ctl := { e.ctl with
      enable := true, forcestall := false, mps := d.mps, stallsentIe := true, setupIe := decide (i = 0)
      txdoneIe := !dma && (decide (i = 0) || d.epaddr.getLsbD 7)
      rxrdyIe := !dma && (decide (i = 0) || !d.epaddr.getLsbD 7) }
    chan := { e.chan with ie := dma || e.chan.ie } }

/-- Programming the fields, giving up a held packet and enabling the interrupts, field by field. -/
theorem Endpoint.unmasked_programmed (i : EpIx) (d : EpDesc) (banks : Nat) (dma : Bool) (e : Endpoint) :
    ({ e.programmed i d banks with rxpend := false } : Endpoint).unmasked i dma = e.configured i d banks dma := by
  unfold Endpoint.unmasked Endpoint.programmed Endpoint.configured descDir descType
  by_cases h0 : i = 0
  · simp [h0]
  · cases d.epaddr.getLsbD 7 <;> simp [h0]

theorem State.programEp_configured (s : State) (i : EpIx) (d : EpDesc) :
    s.programEp i d = { s.modEp i fun _ => (s.ep i).configured i d (s.cfg.epBanks.get i) (s.hasDma i) with
      dev := { s.dev with rxpending := s.othersHeld i } } := by
  rw [State.programEp_eq, State.unmaskEpIrq_eq, State.setRxpend_false, State.othersHeld_modEp]
  refine State.eq_of_ep rfl fun j => ?_
  have target : State.ep { s.modEp i fun _ => (s.ep i).configured i d (s.cfg.epBanks.get i) (s.hasDma i) with
      dev := { s.dev with rxpending := s.othersHeld i } } j =
      (s.modEp i fun _ => (s.ep i).configured i d (s.cfg.epBanks.get i) (s.hasDma i)).ep j := rfl
  rw [target]
  by_cases hj : j = i
  · subst hj
    simp only [State.modEp_ep_same, State.modDev_ep]
    exact Endpoint.unmasked_programmed j d _ _ _
  · simp only [State.modEp_ep_other _ _ _ _ hj, State.modDev_ep]

theorem State.startTransfer_sameMemory (h : (s.ep i).rxpend = false) : SameMemory s (s.startTransfer i) := by
  have nothing : (s.heldStore i).2 = 0 := by
    unfold State.heldStore
    rw [h]
    split <;> simp
  intro a
  exact s.startTransfer_memory i a fun k hk => by rw [nothing] at hk; cases hk

/-- Settles O20: the programmed record is `Endpoint.configured`, and with no packet held starting its queue stores
nothing. -/
theorem configureProgramsTheEndpoint : Obligations.ConfigureProgramsTheEndpoint := by
  intro i d s hv hr hs mps kind geo dirIn e others programmed
  have still : ¬ s.inTransfer i = true := by
    rw [State.inTransfer_iff]
    rintro ⟨hd, hst, hi⟩
    rcases hs with h | h | h
    · exact hd h
    · exact hst h
    · exact hi h
  have okDesc : ¬ (d.mps = 0 ∨ ¬ (i = 0 ↔ descType d = .control)) := by
    rintro (h | h)
    · exact mps h
    · exact h kind
  have okEp : ¬ (s.validEp i = false ∨ (s.ep i).reserved = false) := by simp [hv, hr]
  have prog : s.programEp i d = programmed := s.programEp_configured i d
  have ep : programmed.ep i = e := State.modEp_ep_same s i fun _ => e
  have frame : EpFrame i (s.ep i).queue s (programmed.startTransfer i) := by
    rw [← prog]
    exact ((EpFrame.start i s).programEp d).startTransfer
  refine ⟨_, ?_, rfl, { frame with }, ?_, ?_, ?_, fun empty => ?_⟩
  · rw [exec_configureEndpoint, execConfigureEndpoint, if_neg (mt (s.refused_iff i).mp okEp), if_neg still,
      if_neg (mt (badDesc_iff i d).mp okDesc), ← prog]
    exact if_neg (by rw [Bool.not_eq_true', Bool.not_eq_false]; exact geo)
  · exact fun a => State.startTransfer_sameMemory (s := programmed) (by rw [ep]) a
  · have kept := State.startTransfer_kept (s := programmed) (t := programmed) (i := i) (Endpoint.Kept.refl _)
    rw [ep] at kept
    exact kept
  · exact State.startTransfer_settled programmed (by rw [ep])
  · have started : programmed.startTransfer i = programmed := State.startTransfer_nil (by rw [ep]; exact empty)
    rw [started]
    exact ⟨ep, rfl⟩

end Sys2Proof.Machine
end

section
/-! SUPPORT. Starting a read (O14): a zero-length read completes, one with no packet held waits, and a held packet is
consumed (`HeldPacket`). -/

namespace Sys2Proof.Machine

variable {s t u : State} {i : EpIx} {h : Ref} {more : List Ref}

/-! ### Memory -/

/-- Bytes written read back, for any run that does not wrap onto itself. -/
theorem readBytes_writeBytes (bs : List Byte) (m : Memory) (a : Word) (w : Memory.wf m = true)
    (short : bs.length ≤ 2 ^ 32) : readBytes (writeBytes m a bs) a bs.length = bs := by
  induction bs generalizing m a with
  | nil => rfl
  | cons b rest ih =>
    have short' : rest.length < 2 ^ 32 := short
    have first : readByte (writeBytes (writeByte m a.toNat b) (a + 1) rest) a.toNat = b := by
      rw [readByte_writeBytes_other _ _ _ _ fun k hk => by bv_omega]
      exact readByte_writeByte_same m a.toNat b w
    show readByte (writeBytes (writeByte m a.toNat b) (a + 1) rest) a.toNat ::
      readBytes (writeBytes (writeByte m a.toNat b) (a + 1) rest) (a + 1) rest.length = b :: rest
    rw [first, ih _ _ (writeByte_wf m a.toNat b a.isLt w) short'.le]

theorem len_sub_zero (n : Len) : n - 0 = n := BitVec.sub_zero n
theorem len_zero_add (n : Len) : 0 + n = n := BitVec.zero_add n

/-! ### One turn of the loop -/

theorem State.setEpState_self {x : EpState} (hx : (s.ep i).state = x) : s.setEpState i x = s := by
  refine State.eq_of_ep rfl fun j => ?_
  rw [State.setEpState_ep]
  split
  · next hj => rw [hj, ← hx]
  · rfl

/-- Reads wait at an endpoint: it is `Idle` and a plain OUT endpoint (R176, R189). -/
structure State.readable (s : State) (i : EpIx) : Prop where
  idle : (s.ep i).state = .idle
  noDma : s.hasDma i = false
  out : s.isIn i = false

theorem State.readable.startTransfer (r : s.readable i) :
    s.startTransfer i = readLoop i ((s.ep i).queue.length + 1) s := by
  unfold State.startTransfer
  cases hq : (s.ep i).queue with
  | nil =>
    have none : s.peek i = none := by rw [State.peek_eq, hq]; rfl
    show s = readLoop i 1 s
    unfold readLoop
    rw [none]
    exact (State.setEpState_self r.idle).symm
  | cons h rest =>
    rw [if_neg (by simp), if_neg (by simp [r.noDma]), if_neg (by simp [r.out]), State.readStart, hq]

theorem State.readable.congr (r : s.readable i) (cfg : t.cfg = s.cfg) (idle : (t.ep i).state = .idle)
    (dir : (t.ep i).dir = (s.ep i).dir) : t.readable i where
  idle := idle
  noDma := (State.hasDma_congr cfg i).trans r.noDma
  out := by
    have out := r.out
    unfold State.isIn at out ⊢
    rw [dir]
    exact out

/-- The number of bytes of a held packet that a fresh read takes (R190). -/
def Endpoint.takes (e : Endpoint) (q : Request) : Len := if e.sta.bytecnt ≤ q.len then e.sta.bytecnt else q.len

/-- The held packet ends the read: its buffer is full or the packet is short (R190). -/
def Endpoint.ends (e : Endpoint) (q : Request) : Bool := decide (e.takes q = q.len) || decide (e.sta.bytecnt < e.mps)

/-- An endpoint whose held packet was consumed, in state `x` and with queue `queue`. -/
def Endpoint.consumed (e : Endpoint) (x : EpState) (queue : List Ref) : Endpoint :=
  { e with
    state := x
    queue := queue
    rxpend := false
    bank := (e.bank + 1) % e.banks
    sta := { e.sta with rxrdy := false }
    ctl := { e.ctl with rxrdyIe := true }
    fifo := { e.fifo with rx := [] } }

/-- The state in which the held packet is copied (R189). -/
def State.takeHeld (s : State) (i : EpIx) : State :=
  ((s.setEpState i .receiving).setRxpend i false).modCtl i fun c => { c with rxrdyIe := true }

/-- `t` is `s` with the packet held for endpoint `i` copied into read `h`. -/
structure HeldPacket (i : EpIx) (h : Ref) (s t : State) : Prop where
  rest : t = { s with
    eps := t.eps, reqs := t.reqs, mem := t.mem, draws := t.draws
    dev := { s.dev with rxpending := s.othersHeld i } }
  ep : t.ep i = (s.ep i).consumed .receiving (s.ep i).queue
  other : ∀ j, j ≠ i → t.ep j = s.ep j
  hasReq : t.hasReq h = true
  req : t.req h = { s.req h with xfrd := (s.ep i).takes (s.req h) }
  requests : ∀ k, k ≠ h → t.req k = s.req k
  outside : SameMemoryOutside (s.req h).buf ((s.ep i).takes (s.req h)).toNat s t
  stored : Memory.wf s.mem = true → ((s.ep i).takes (s.req h)).toNat ≤ (s.ep i).fifo.rx.length →
    readBytes t.mem (s.req h).buf ((s.ep i).takes (s.req h)).toNat =
      (s.ep i).fifo.rx.take ((s.ep i).takes (s.req h)).toNat

theorem State.takeHeld_eq (s : State) (i : EpIx) : s.takeHeld i = { s.modEp i fun e =>
    { e with state := .receiving, rxpend := false, ctl := { e.ctl with rxrdyIe := true } } with
    dev := { s.dev with rxpending := s.othersHeld i } } := by
  unfold State.takeHeld
  rw [State.setRxpend_false, State.setEpState, State.othersHeld_modEp]
  have once : (((s.modEp i fun e => { e with state := .receiving }).modEp i fun e => { e with rxpend := false }).modEp i
      fun e => { e with ctl := { e.ctl with rxrdyIe := true } }) = s.modEp i fun e =>
      { e with state := .receiving, rxpend := false, ctl := { e.ctl with rxrdyIe := true } } := by
    rw [State.modEp_modEp, State.modEp_modEp]
  exact congrArg (State.modDev · fun d => { d with rxpending := s.othersHeld i }) once

/-- The bytes a fresh read takes from the bank are in its buffer, and those outside it are as they were. -/
theorem State.readBank_stored (hx : (s.req h).xfrd = 0) :
    SameMemoryOutside (s.req h).buf ((s.ep i).takes (s.req h)).toNat s (s.readBank i h) ∧
    (Memory.wf s.mem = true → ((s.ep i).takes (s.req h)).toNat ≤ (s.ep i).fifo.rx.length →
      readBytes (s.readBank i h).mem (s.req h).buf ((s.ep i).takes (s.req h)).toNat =
        (s.ep i).fifo.rx.take ((s.ep i).takes (s.req h)).toNat) := by
  have start : bufAt (s.req h).buf (s.req h).xfrd = (s.req h).buf := by rw [hx]; simp [bufAt]
  have count : lenMin (s.ep i).sta.bytecnt ((s.req h).len - (s.req h).xfrd) = (s.ep i).takes (s.req h) := by
    rw [hx, len_sub_zero]
    rfl
  have outside := State.readBank_memory s i h
  rw [start, count] at outside
  refine ⟨outside, fun w enough => ?_⟩
  have written : (s.readBank i h).mem = writeBytes s.mem (s.req h).buf
      (s.bankBytes (s.ep i).fifo.rx ((s.ep i).takes (s.req h)).toNat) := by
    rw [← start, ← count]
    rfl
  have back := readBytes_writeBytes (s.bankBytes (s.ep i).fifo.rx ((s.ep i).takes (s.req h)).toNat) s.mem (s.req h).buf w
    (by rw [State.bankBytes_length]; omega)
  rw [State.bankBytes_length] at back
  rw [written, back, State.bankBytes_of_le _ _ _ enough]

theorem State.readBank_ep_same (s : State) (i : EpIx) (h : Ref) : (s.readBank i h).ep i = { s.ep i with
    bank := ((s.ep i).bank + 1) % (s.ep i).banks
    sta := { (s.ep i).sta with rxrdy := false }
    fifo := { (s.ep i).fifo with rx := [] } } := by
  unfold State.readBank State.fifoReadRx
  simp

theorem State.readBank_ep_other (s : State) (i j : EpIx) (h : Ref) (hj : j ≠ i) : (s.readBank i h).ep j = s.ep j := by
  unfold State.readBank State.fifoReadRx
  simp [hj]

theorem State.readBank_req (s : State) (i : EpIx) (h k : Ref) : (s.readBank i h).req k = if k = h ∧ s.hasReq h = true then
    { s.req h with xfrd := (s.req h).xfrd + lenMin (s.ep i).sta.bytecnt ((s.req h).len - (s.req h).xfrd) }
    else s.req k := by
  unfold State.readBank
  extract_lets r n d
  exact State.modReq_req (d.2.memWrite (bufAt r.buf r.xfrd) d.1) h k fun q => { q with xfrd := q.xfrd + n }

theorem State.readBank_rest (s : State) (i : EpIx) (h : Ref) : s.readBank i h = { s with
    eps := (s.readBank i h).eps, reqs := (s.readBank i h).reqs, mem := (s.readBank i h).mem
    draws := (s.readBank i h).draws } := rfl

theorem State.readBank_hasReq (s : State) (i : EpIx) (h k : Ref) : (s.readBank i h).hasReq k = s.hasReq k := by
  unfold State.readBank
  extract_lets r n d
  exact State.modReq_hasReq (d.2.memWrite (bufAt r.buf r.xfrd) d.1) h k fun q => { q with xfrd := q.xfrd + n }

theorem State.takeHeld_readBank (hr : s.hasReq h = true) (hx : (s.req h).xfrd = 0) :
    HeldPacket i h s ((s.takeHeld i).readBank i h) := by
  rw [State.takeHeld_eq]
  generalize hv : ({ s.modEp i fun e =>
    { e with state := .receiving, rxpend := false, ctl := { e.ctl with rxrdyIe := true } } with
    dev := { s.dev with rxpending := s.othersHeld i } } : State) = v
  have ep : v.ep i =
      { s.ep i with state := .receiving, rxpend := false, ctl := { (s.ep i).ctl with rxrdyIe := true } } := by
    rw [← hv]
    exact State.modEp_ep_same s i fun e =>
      { e with state := .receiving, rxpend := false, ctl := { e.ctl with rxrdyIe := true } }
  have other : ∀ j, j ≠ i → v.ep j = s.ep j := fun j hj => by
    rw [← hv]
    exact State.modEp_ep_other s i j
      (fun e => { e with state := .receiving, rxpend := false, ctl := { e.ctl with rxrdyIe := true } }) hj
  have req : ∀ k, v.req k = s.req k := fun k => by rw [← hv]; rfl
  have hasReq : ∀ k, v.hasReq k = s.hasReq k := fun k => by rw [← hv]; rfl
  have mem : v.mem = s.mem := by rw [← hv]; rfl
  have takes : (v.ep i).takes (v.req h) = (s.ep i).takes (s.req h) := by rw [ep, req]; rfl
  obtain ⟨outside, stored⟩ := State.readBank_stored (s := v) (i := i) (h := h) (by rw [req]; exact hx)
  rw [takes, req] at outside stored
  refine ⟨?_, ?_, fun j hj => ?_, ?_, ?_, fun k hk => ?_, fun a ha => ?_, fun w enough => ?_⟩
  · have rest := State.readBank_rest v i h
    generalize v.readBank i h = w at rest ⊢
    refine rest.trans ?_
    rw [← hv]
    rfl
  · rw [State.readBank_ep_same, ep]
    rfl
  · rw [State.readBank_ep_other _ _ _ _ hj, other j hj]
  · rw [State.readBank_hasReq, hasReq, hr]
  · rw [State.readBank_req, if_pos ⟨rfl, (hasReq h).trans hr⟩, req, ep, hx]
    show { s.req h with xfrd := 0 + lenMin (s.ep i).sta.bytecnt ((s.req h).len - 0) } = _
    rw [len_sub_zero, len_zero_add]
    rfl
  · rw [State.readBank_req, if_neg fun e => hk e.1, req]
  · rw [outside a ha, mem]
  · rw [mem, ep] at stored
    exact stored w enough

/-- `t` is `s` with the packet held for endpoint `i` copied into read `h`, which is completed if that ends it; `queue` is
then queued. -/
structure ReadTurn (i : EpIx) (h : Ref) (ends : Bool) (queue : List Ref) (s t : State) : Prop where
  rest : t = { s with
    eps := t.eps, reqs := t.reqs, mem := t.mem, draws := t.draws
    cbList := s.cbList ++ if ends then [.done i h .ok] else []
    dev := { s.dev with rxpending := s.othersHeld i } }
  ep : t.ep i = (s.ep i).consumed (if ends then .idle else .receiving) queue
  other : ∀ j, j ≠ i → t.ep j = s.ep j
  req : t.req h = if ends then completed .ok { s.req h with xfrd := (s.ep i).takes (s.req h) }
    else { s.req h with xfrd := (s.ep i).takes (s.req h) }
  requests : ∀ k, k ≠ h → t.req k = s.req k
  outside : SameMemoryOutside (s.req h).buf ((s.ep i).takes (s.req h)).toNat s t
  stored : Memory.wf s.mem = true → ((s.ep i).takes (s.req h)).toNat ≤ (s.ep i).fifo.rx.length →
    readBytes t.mem (s.req h).buf ((s.ep i).takes (s.req h)).toNat =
      (s.ep i).fifo.rx.take ((s.ep i).takes (s.req h)).toNat

theorem ReadTurn.ret {ends : Bool} {queue : List Ref} (T : ReadTurn i h ends queue s t) : t.ret = s.ret :=
  (congrArg State.ret T.rest :)

/-- A packet that does not end the read. -/
theorem HeldPacket.goesOn (P : HeldPacket i h s t) : ReadTurn i h false (s.ep i).queue s t where
  rest := P.rest.trans (by simp)
  ep := P.ep
  other := P.other
  req := P.req
  requests := P.requests
  outside := P.outside
  stored := P.stored

/-- A packet that ends the read. -/
theorem HeldPacket.ends (P : HeldPacket i h s t) (hq : (s.ep i).queue = h :: more) :
    ReadTurn i h true more s ((t.complete i .ok).setEpState i .idle) := by
  have queue : (t.ep i).queue = h :: more := by rw [P.ep]; exact hq
  have done := State.complete_cons t i .ok queue
  have req : ∀ k, ((t.complete i .ok).setEpState i .idle).req k =
      if k = h ∧ t.hasReq h = true then completed .ok (t.req h) else t.req k := by
    intro k
    rw [State.setEpState_req, done, State.callback_req, State.modReq_req]
    rfl
  refine ⟨?_, ?_, fun j hj => ?_, ?_, fun k hk => ?_, fun a ha => ?_, fun w enough => ?_⟩
  · rw [done]
    exact (congrArg (fun v : State => (((v.modEp i fun e => { e with queue := more }).modReq h
      fun q => { q with result := some .ok, inflight := 0, owner := .driver }).callback (.done i h .ok)).setEpState i .idle)
      P.rest).trans rfl
  · rw [State.setEpState_ep, if_pos rfl, State.complete_ep_same, P.ep, hq]
    rfl
  · rw [State.setEpState_ep, if_neg hj, State.complete_ep_other _ _ _ _ hj, P.other j hj]
  · rw [req, if_pos ⟨rfl, P.hasReq⟩, P.req]
    rfl
  · rw [req, if_neg fun e => hk e.1, P.requests k hk]
  · rw [State.setEpState_mem, State.complete_mem]
    exact P.outside a ha
  · rw [State.setEpState_mem, State.complete_mem]
    exact P.stored w enough

/-! ### Starting the queue -/

section
variable (r : s.readable i) (hq : (s.ep i).queue = h :: more)
include r hq

/-- A zero-length read completes, and the next one starts (R189). -/
theorem State.readable.startTransfer_zero (hl : (s.req h).len = 0) :
    s.startTransfer i = (s.complete i .ok).startTransfer i := by
  have done : (s.complete i .ok).readable i :=
    r.congr (State.complete_cfg s i .ok) (by rw [State.complete_ep_same]; exact r.idle) (by rw [State.complete_ep_same])
  have queue : ((s.complete i .ok).ep i).queue = more := by rw [State.complete_ep_same, hq]; rfl
  have head : s.peek i = some h := by rw [State.peek_eq, hq]; rfl
  rw [r.startTransfer, done.startTransfer, queue, hq, List.length_cons, readLoop]
  rw [head]
  exact if_pos hl

/-- With no packet held the read waits (R189). -/
theorem State.readable.startTransfer_waits (hl : (s.req h).len ≠ 0) (none : (s.ep i).rxpend = false) :
    s.startTransfer i = s.setEpState i .receiving := by
  have head : s.peek i = some h := by rw [State.peek_eq, hq]; rfl
  rw [r.startTransfer, readLoop]
  rw [head]
  exact (if_neg hl).trans (if_neg (by simp [none]))

/-- A held packet is consumed; if that ends the read, the next one starts (R189 to R192). -/
theorem State.readable.startTransfer_held (hl : (s.req h).len ≠ 0) (held : (s.ep i).rxpend = true)
    (hr : s.hasReq h = true) (hx : (s.req h).xfrd = 0) :
    ∃ u, s.startTransfer i = (if (s.ep i).ends (s.req h) then u.startTransfer i else u) ∧
      ReadTurn i h ((s.ep i).ends (s.req h)) (if (s.ep i).ends (s.req h) then more else h :: more) s u := by
  have head : s.peek i = some h := by rw [State.peek_eq, hq]; rfl
  have P := State.takeHeld_readBank (i := i) hr hx
  have ends : ((s.takeHeld i).readBank i h).readEnds i h ((s.takeHeld i).ep i).sta.bytecnt =
      (s.ep i).ends (s.req h) := by
    unfold State.readEnds Endpoint.ends
    have bytecnt : ((s.takeHeld i).ep i).sta.bytecnt = (s.ep i).sta.bytecnt := by
      unfold State.takeHeld
      simp
    rw [P.req, P.ep, bytecnt]
    rfl
  have turn : s.startTransfer i = if (s.ep i).ends (s.req h) = true then
      readLoop i ((s.ep i).queue.length) ((((s.takeHeld i).readBank i h).complete i .ok).setEpState i .idle)
      else (s.takeHeld i).readBank i h := by
    rw [r.startTransfer, readLoop]
    rw [head, ← ends]
    exact (if_neg hl).trans (if_pos (by simpa using held))
  cases he : (s.ep i).ends (s.req h) with
  | false =>
    rw [he] at turn
    refine ⟨_, turn, ?_⟩
    have P := P.goesOn
    rwa [hq] at P
  | true =>
    rw [he] at turn
    have done := P.ends hq
    have next := r.congr (congrArg State.cfg done.rest :) (by rw [done.ep]; rfl) (by rw [done.ep]; rfl)
    refine ⟨_, turn.trans ?_, done⟩
    rw [if_pos rfl, if_pos rfl, next.startTransfer, done.ep, hq]
    rfl

end

/-! ### SUBMIT (O14) -/

/-- The state in which SUBMIT has queued its request (R130). -/
def State.queued (s : State) (i : EpIx) (h : Ref) : State := (s.modReq h submitted).enqueue i h

theorem State.queued_ep_same (empty : (s.ep i).queue = []) : (s.queued i h).ep i = { s.ep i with queue := [h] } := by
  rw [State.queued, State.enqueue_ep, if_pos rfl, State.modReq_ep, empty]
  rfl

theorem State.queued_ep_other (j : EpIx) (hj : j ≠ i) : (s.queued i h).ep j = s.ep j := by
  rw [State.queued, State.enqueue_ep, if_neg hj, State.modReq_ep]

theorem State.queued_req_same (hr : s.hasReq h = true) : (s.queued i h).req h = submitted (s.req h) :=
  State.modReq_req_same s h submitted hr

theorem State.queued_req_other (k : Ref) (hk : k ≠ h) : (s.queued i h).req k = s.req k :=
  State.modReq_req_other s h k submitted hk

theorem State.queued_hasReq (k : Ref) : (s.queued i h).hasReq k = s.hasReq k := State.modReq_hasReq s h k submitted

theorem State.queued_othersHeld : (s.queued i h).othersHeld i = s.othersHeld i :=
  State.othersHeld_congr rfl State.queued_ep_other

theorem State.queued_readable (r : s.readable i) (empty : (s.ep i).queue = []) : (s.queued i h).readable i :=
  r.congr rfl (by rw [State.queued_ep_same empty]; exact r.idle) (by rw [State.queued_ep_same empty])

/-- A completed head leaves its queue, its callback is collected, and it is the class driver's (R171). -/
theorem State.complete_head (hq : (s.ep i).queue = h :: more) (hr : s.hasReq h = true) :
    s.complete i .ok = { s with
      reqs := (s.complete i .ok).reqs, eps := (s.complete i .ok).eps, cbList := s.cbList ++ [.done i h .ok] } ∧
    (s.complete i .ok).ep i = { s.ep i with queue := more } ∧ (∀ j, j ≠ i → (s.complete i .ok).ep j = s.ep j) ∧
    (s.complete i .ok).req h = completed .ok (s.req h) ∧ ∀ k, k ≠ h → (s.complete i .ok).req k = s.req k := by
  have done := State.complete_cons s i .ok hq
  refine ⟨by rw [done]; rfl, by rw [State.complete_ep_same, hq]; rfl, fun j hj => State.complete_ep_other _ _ _ _ hj, ?_,
    fun k hk => ?_⟩
  · rw [done, State.callback_req]
    exact State.modReq_req_same _ h _ hr
  · rw [done, State.callback_req, State.modReq_req_other _ h k _ hk]
    rfl

section
variable (r : s.readable i) (empty : (s.ep i).queue = []) (hr : s.hasReq h = true)
include r empty hr

/-- A zero-length read submitted alone completes (R189). -/
theorem State.queued_startTransfer_zero (hl : (s.req h).len = 0) : ∃ t, (s.queued i h).startTransfer i = t ∧
    t = { s with reqs := t.reqs, eps := t.eps, cbList := s.cbList ++ [.done i h .ok] } ∧
    t.ep i = s.ep i ∧ t.req h = completed .ok (submitted (s.req h)) := by
  have queue : ((s.queued i h).ep i).queue = h :: [] := by rw [State.queued_ep_same empty]
  have req := State.queued_req_same (i := i) hr
  obtain ⟨rest, ep, -, done, -⟩ := State.complete_head queue ((State.queued_hasReq h).trans hr)
  refine ⟨(s.queued i h).complete i .ok, ?_, rest, ?_, done.trans (by rw [req])⟩
  · rw [(State.queued_readable r empty).startTransfer_zero queue (by rw [req]; exact hl)]
    exact State.startTransfer_nil (by rw [ep])
  · rw [ep, State.queued_ep_same empty, ← empty]

/-- A read submitted with no packet held waits (R189). -/
theorem State.queued_startTransfer_waits (hl : (s.req h).len ≠ 0) (none : (s.ep i).rxpend = false) :
    ∃ t, (s.queued i h).startTransfer i = t ∧ t = { s with reqs := t.reqs, eps := t.eps } ∧
      t.ep i = { s.ep i with state := .receiving, queue := [h] } ∧ t.req h = submitted (s.req h) := by
  have ep := State.queued_ep_same (h := h) empty
  have req := State.queued_req_same (i := i) hr
  refine ⟨(s.queued i h).setEpState i .receiving, ?_, rfl, ?_, req⟩
  · exact (State.queued_readable r empty).startTransfer_waits (more := []) (by rw [ep]) (by rw [req]; exact hl)
      (by rw [ep]; exact none)
  · rw [State.setEpState_ep, if_pos rfl, ep]

/-- A read submitted with a packet held consumes it (R190). -/
theorem State.queued_startTransfer_held (hl : (s.req h).len ≠ 0) (held : (s.ep i).rxpend = true) :
    ∃ t, (s.queued i h).startTransfer i = t ∧
      ReadTurn i h ((s.ep i).ends (s.req h)) (if (s.ep i).ends (s.req h) then [] else [h]) (s.queued i h) t := by
  have ep := State.queued_ep_same (h := h) empty
  have req := State.queued_req_same (i := i) hr
  obtain ⟨u, turn, U⟩ := (State.queued_readable r empty).startTransfer_held (more := []) (by rw [ep])
    (by rw [req]; exact hl) (by rw [ep]; exact held) ((State.queued_hasReq h).trans hr) (by rw [req]; rfl)
  have ends : ((s.queued i h).ep i).ends ((s.queued i h).req h) = (s.ep i).ends (s.req h) := by rw [ep, req]; rfl
  rw [ends] at turn U
  refine ⟨u, turn.trans ?_, U⟩
  split
  · next he =>
    have emptied : (u.ep i).queue = [] := by rw [U.ep]; exact if_pos he
    exact State.startTransfer_nil emptied
  · rfl

end

/-- Settles O14: both parts are the three ways a fresh read can start, the first part from the state in which the
request has been queued. -/
theorem submitStartsARead : Obligations.SubmitStartsARead := by
  intro i h s idle noDma out q e n ends others stored
  have r : s.readable i := ⟨idle, noDma, out⟩
  refine ⟨fun ha empty => ?_, fun more hq hr hx => ⟨fun hl => ?_, fun hl none => ?_, fun hl held => ?_⟩⟩
  · have F := (EpFrame.start i (s.queued i h)).startTransfer
    rw [State.queued_ep_same empty] at F
    refine ⟨_, exec_submit_of_idle ha idle, ⟨fun j hj => ?_, fun k hk => ?_⟩, fun hl => ?_, fun hl none => ?_,
      fun hl held => ?_⟩
    · exact (F.other j hj).trans (State.queued_ep_other j hj)
    · exact (F.requests k (by simpa using hk)).trans (State.queued_req_other k hk)
    · obtain ⟨t, started, rest, ep, req⟩ := State.queued_startTransfer_zero r empty ha.exists_ hl
      rw [State.queued] at started
      rw [started]
      exact ⟨congrArg (State.answer · .ok) rest, ep, req⟩
    · obtain ⟨t, started, rest, ep, req⟩ := State.queued_startTransfer_waits r empty ha.exists_ hl none
      rw [State.queued] at started
      rw [started]
      exact ⟨congrArg (State.answer · .ok) rest, ep, req⟩
    · obtain ⟨t, started, T⟩ := State.queued_startTransfer_held r empty ha.exists_ hl held
      obtain ⟨rest, ep, -, req, -, outside, written⟩ := T
      rw [State.queued_othersHeld] at rest
      rw [State.queued_ep_same empty] at ep outside written req
      rw [State.queued_req_same ha.exists_] at outside written req
      rw [State.queued] at started
      rw [started]
      refine ⟨⟨congrArg (State.answer · .ok) rest, ep, outside, written⟩, rfl, req.trans ?_⟩
      show (if ends then _ else _) = _
      generalize ends = b
      cases b <;> rfl
  · obtain ⟨rest, ep, other, req, requests⟩ := State.complete_head hq hr
    exact ⟨_, r.startTransfer_zero hq hl, ⟨other, requests⟩, rest, ep, req⟩
  · rw [r.startTransfer_waits hq hl none]
    exact ⟨rfl, State.modEp_ep_same s i _, fun j hj => State.modEp_ep_other s i j _ hj, fun _ _ => rfl⟩
  · obtain ⟨u, turn, U⟩ := r.startTransfer_held hq hl held hr hx
    exact ⟨u, turn, ⟨U.other, U.requests⟩, ⟨by rw [U.ret]; exact U.rest, U.ep, U.outside, U.stored⟩, U.ret, U.req⟩

end Sys2Proof.Machine
end

section
/-! SUPPORT. What each procedure stores in memory, said once: it keeps the canonical form and writes only addresses that a
predicate `B` allows (`State.stores`), if the invariant `A` places the DMA slices and the free room of queued requests at such
addresses (`StoreRule`). -/

namespace Sys2Proof.Machine

/-! ### Storing -/

/-- From `s` to `t` memory stays canonical, and every byte `B` does not allow in `s` is as before. -/
structure State.confined (B : State → Word → Prop) (s t : State) : Prop where
  canonical : Memory.wf s.mem = true → Memory.wf t.mem = true
  outside : ∀ x : Word, ¬B s x → readByte t.mem x.toNat = readByte s.mem x.toNat

/-- And `B` allows nothing new. -/
structure State.stores (B : State → Word → Prop) (s t : State) : Prop extends s.confined B t where
  shrinks : ∀ x, B t x → B s x

variable {A : State → Prop} {B : State → Word → Prop} {s s₀ t u : State} {i : EpIx} {h : Ref}

theorem State.confined.of_mem (e : t.mem = s.mem) : s.confined B t where
  canonical w := by rw [e]; exact w
  outside x _ := by rw [e]

theorem State.confined.congr (c : s.confined B t) (e : u.mem = t.mem) : s.confined B u where
  canonical w := by rw [e]; exact c.canonical w
  outside x hx := by rw [e]; exact c.outside x hx

/-- Storing and then a confined procedure. -/
theorem State.stores.then (a : s.stores B t) (b : t.confined B u) : s.confined B u where
  canonical w := b.canonical (a.canonical w)
  outside x hx := (b.outside x fun hb => hx (a.shrinks x hb)).trans (a.outside x hx)

theorem State.stores.trans (a : s.stores B t) (b : t.stores B u) : s.stores B u :=
  ⟨a.then b.toconfined, fun x hx => a.shrinks x (b.shrinks x hx)⟩

theorem State.stores.refl (s : State) : s.stores B s := ⟨.of_mem rfl, fun _ => id⟩

/-- An address outside a range is none of its bytes. -/
theorem ne_of_not_inRange {a x : Word} {n : Nat} (h : inRange a n x ≠ true) (k : Nat) (hk : k < n) :
    x.toNat ≠ (a + BitVec.ofNat 32 k).toNat := by
  intro e
  refine h (decide_eq_true ?_)
  have place : x - a = BitVec.ofNat 32 k := by rw [BitVec.eq_of_toNat_eq e]; bv_omega
  rw [place, BitVec.toNat_ofNat]
  exact Nat.lt_of_le_of_lt (Nat.mod_le _ _) hk

/-- Writing a range that `B` allows is confined. -/
theorem State.confined.of_range {a : Word} {n : Nat} (canonical : Memory.wf s.mem = true → Memory.wf t.mem = true)
    (memory : SameMemoryOutside a n s t) (allowed : ∀ x, inRange a n x = true → B s x) : s.confined B t where
  canonical := canonical
  outside x hx := memory x.toNat (ne_of_not_inRange fun hr => hx (allowed x hr))

theorem inRange_mono {a x : Word} {n m : Nat} (hn : n ≤ m) (h : inRange a n x = true) : inRange a m x = true := by
  unfold inRange at *
  simp only [decide_eq_true_eq] at *
  omega

/-- SUBMIT either refuses with a result and nothing else, or queues the request and starts an `Idle` endpoint (R130). -/
theorem execSubmit_cases (s : State) (i : EpIx) (h : Ref) : (∃ r, execSubmit i h s = .next (s.answer r)) ∨
    (s.accepts i h ∧ execSubmit i h s = .next
      ((if (s.ep i).state = .idle then (s.queued i h).startTransfer i else s.queued i h).answer .ok)) := by
  unfold execSubmit
  dsimp only
  split
  · exact .inl ⟨_, rfl⟩
  next hv =>
  split
  · exact .inl ⟨_, rfl⟩
  next hr =>
  split
  · exact .inl ⟨_, rfl⟩
  next ho =>
  split
  · exact .inl ⟨_, rfl⟩
  next hd =>
  obtain ⟨valid, reserved⟩ := not_or.mp (mt (s.refused_iff i).mpr hv)
  obtain ⟨notNull, exists_, callback, buffer⟩ := by simpa only [not_or, not_and, not_not] using hr
  obtain ⟨bound, enabled⟩ := not_or.mp hd
  exact .inr ⟨⟨by simpa using valid, by simpa using reserved, notNull, by simpa using exists_, callback, buffer,
    by simpa using ho, bound, enabled⟩, rfl⟩

/-! ### The rule -/

/-- `A` is kept by every step and makes `B` allow the addresses the engine writes: those of a running slice, and those not
counted yet of a queued request. `B` speaks of the endpoints and the requests, and an operation on one endpoint allows
nothing new. -/
structure StoreRule (A : State → Prop) (B : State → Word → Prop) : Prop where
  inv : StepInvariant fun _ => A
  same : ∀ {s t}, t.eps = s.eps → t.reqs = s.reqs → ∀ x, B t x → B s x
  frame : ∀ {s t i}, EpFrame i (s.ep i).queue s t → ∀ x, B t x → B s x
  slice : ∀ {s i}, A s → (s.ep i).chan.running = true →
    ∀ x, inRange (s.ep i).chan.addr (s.ep i).chan.count.toNat x = true → B s x
  room : ∀ {s i h}, A s → h ∈ (s.ep i).queue → ∀ x,
    inRange (bufAt (s.req h).buf (s.req h).xfrd) ((s.req h).len - (s.req h).xfrd).toNat x = true → B s x
  packet : ∀ {s₀ s i}, A s₀ → (s₀.ep i).ctl.rxrdyIe = true → s.cfg = s₀.cfg → (s.ep i).state = .receiving → A s →
    s.confined B (s.readPacket i)
  resetEp : ∀ {s i}, A s → A (s.resetEp i)

/-- No stimulus record spells SUBMIT (R95, R97). -/
theorem decode_stimulus_ne_submit (bytes : List Byte) (i : EpIx) (h : Ref) (more : List Byte) :
    decode .stimulus bytes ≠ .ok (.submit i h, more) := by
  show decodeStimulusBytes bytes ≠ _
  unfold decodeStimulusBytes withIx withNat
  split
  · nofun
  · split <;> grind

namespace StoreRule

variable (R : StoreRule A B)
include R

theorem of_frame (F : EpFrame i (s.ep i).queue s t) (c : s.confined B t) : s.stores B t := ⟨c, R.frame F⟩

/-- An operation on one endpoint that leaves memory alone. -/
theorem quiet (F : EpFrame i (s.ep i).queue s t) (mem : t.mem = s.mem) : s.stores B t := R.of_frame F (.of_mem mem)

/-- An update of neither endpoints nor requests nor memory. -/
theorem apart (eps : t.eps = s.eps) (reqs : t.reqs = s.reqs) (mem : t.mem = s.mem) : s.stores B t :=
  ⟨.of_mem mem, R.same eps reqs⟩

theorem modEp {f : Endpoint → Endpoint} (hr : (f (s.ep i)).reserved = (s.ep i).reserved)
    (hq : (f (s.ep i)).queue = (s.ep i).queue) : s.stores B (s.modEp i f) :=
  R.quiet ((EpFrame.start i s).modEp f hr fun _ => by rw [hq]; exact id) rfl

/-! ### Slices -/

/-- Bytes of a slice that `B` allows. -/
theorem sliceBytes (a : A s) {n : Nat} (hn : n ≠ 0 → (s.ep i).chan.running = true ∧ n ≤ (s.ep i).chan.count.toNat) (x : Word)
    (hx : inRange (s.ep i).chan.addr n x = true) : B s x := by
  have some : n ≠ 0 := fun e => by subst e; simp [inRange] at hx
  exact R.slice a (hn some).1 x (inRange_mono (hn some).2 hx)

theorem liveBytes (a : A s) (x : Word) (hx : inRange (s.ep i).chan.addr (s.liveSlice i) x = true) : B s x := by
  refine R.sliceBytes a (fun some => ?_) x hx
  unfold State.liveSlice at some ⊢
  split at some
  · next live =>
    rw [if_pos live]
    exact ⟨(Bool.and_eq_true_iff.mp live).1, Nat.le_refl _⟩
  · exact absurd rfl some

theorem openBytes (a : A s) (x : Word) (hx : inRange (s.ep i).chan.addr (s.openSlice i) x = true) : B s x := by
  refine R.liveBytes a x (inRange_mono ?_ hx)
  unfold State.openSlice
  split
  · exact Nat.le_refl _
  · exact Nat.zero_le _

theorem scrambleSlice (a : A s) : s.stores B (s.scrambleSlice i) :=
  R.of_frame (EpFrame.start i s).scrambleSlice
    (.of_range (State.scrambleSlice_wf s i) (State.scrambleSlice_memory s i) (R.liveBytes a))

theorem moveSlice (a : A s) {k : Nat} (hk : k ≤ (s.ep i).chan.count.toNat) : s.stores B (s.moveSlice i k) := by
  refine R.of_frame ((EpFrame.start i s).moveSlice k)
    (.of_range (State.moveSlice_wf s i k) (State.moveSlice_memory s i k) (R.sliceBytes a fun some => ?_))
  split at some
  · next live =>
    rw [if_pos live]
    exact ⟨(Bool.and_eq_true_iff.mp live).1, hk⟩
  · exact absurd rfl some

theorem dmaStopIfBusy (a : A s) : s.stores B (s.dmaStopIfBusy i) :=
  R.of_frame (EpFrame.start i s).dmaStopIfBusy
    (.of_range (State.dmaStopIfBusy_wf s i) (State.dmaStopIfBusy_memory s i) (R.openBytes a))

theorem disableEp (a : A s) : s.stores B (s.disableEp i) :=
  R.of_frame (EpFrame.start i s).disableEp
    (.of_range (State.disableEp_wf s i) (State.disableEp_memory s i) (R.openBytes a))

theorem stallEp (a : A s) : s.stores B (s.stallEp i) :=
  R.of_frame (EpFrame.start i s).stallEp
    (.of_range (State.stallEp_wf s i) (State.stallEp_memory s i) (R.openBytes a))

theorem haltEp (a : A s) : s.stores B (s.haltEp i) := by
  unfold State.haltEp
  split
  · exact .refl s
  · dsimp only
    split
    · exact (R.stallEp a).trans (R.modEp rfl rfl)
    · exact R.stallEp a

/-- Masking an endpoint, stopping its channel and cancelling its queue. -/
theorem cancelled (a : A s) : s.stores B (((s.maskEpIrq i).dmaStopIfBusy i).cancelAll i .shutdown) := by
  have masked : A (s.maskEpIrq i) := R.inv.maskEpIrq (W := ∅) a
  have stopped := R.dmaStopIfBusy (i := i) masked
  have mask : s.stores B (s.maskEpIrq i) := R.modEp rfl rfl
  exact (mask.trans stopped).trans (R.quiet ((EpFrame.start i _).cancelAll .shutdown) (State.cancelAll_mem _ _ _))

theorem quell (a : A s) : s.stores B (s.resetEp i) := by
  unfold State.resetEp
  dsimp only
  refine (R.cancelled (i := i) a).trans (R.quiet (i := i) ?_ rfl)
  exact ((EpFrame.modEp (.start i _) _ rfl fun _ => id).setRxpend false).withdrawTx

/-! ### Starting a queue -/

/-- Where a held packet goes. -/
theorem heldBytes (a : A s) (x : Word) (hx : inRange (s.heldStore i).1 (s.heldStore i).2 x = true) : B s x := by
  have none : inRange 0 0 x ≠ true := by simp [inRange]
  unfold State.heldStore at hx
  split at hx
  · exact absurd hx none
  · next h found =>
    split at hx
    · exact absurd hx none
    · exact R.room a (List.mem_of_find?_eq_some found) x (inRange_mono (lenMin_le_right _ _) hx)

theorem startTransfer (a : A s) : s.stores B (s.startTransfer i) :=
  R.of_frame (EpFrame.start i s).startTransfer
    (.of_range (State.startTransfer_wf s i) (State.startTransfer_memory s i) (R.heldBytes a))

theorem resumeEp (a : A s) : s.stores B (s.resumeEp i) := by
  unfold State.resumeEp
  split
  · next hs =>
    have cleared : A (s.modEp i fun e =>
        { e with state := .idle, stalled := false, halted := false, ctl := { e.ctl with forcestall := false } }) := by
      refine R.inv.settle (W := Set.univ) (.of_work ?_ rfl) ⟨nofun, nofun⟩ (.inl (State.not_moving_of_state hs nofun nofun))
        (fun _ => .inl (Set.mem_univ i)) a
      exact fun ⟨_, _, _, fill, tx⟩ => ⟨rfl, nofun, fun _ => ⟨nofun, nofun, nofun⟩, fill, tx⟩
    exact (R.modEp rfl rfl).trans (R.startTransfer cleared)
  · exact .refl s

/-- A transfer ends and the next request starts. -/
theorem completeAndStart {r : Result} (hm : s.moving i = true) (hp : s.parked i) (a : A s) :
    s.stores B (s.completeAndStart i r) :=
  (R.quiet (((EpFrame.start i s).complete r).setEpState .idle) (State.complete_mem s i r)).trans
    (R.startTransfer (R.inv.finish (W := ∅) hm hp a))

/-! ### The handlers of one endpoint -/

theorem stallSent (a : A s) : s.stores B (s.stallSent i) := by
  have cleared : A (s.modCtl i fun c => { c with forcestall := false }) :=
    R.inv.inert (W := ∅) (fun _ => rfl) (fun _ => rfl) a
  have clear : s.stores B (s.modCtl i fun c => { c with forcestall := false }) := R.modEp rfl rfl
  unfold State.stallSent
  split
  · exact .refl s
  · dsimp only
    split
    · next hs =>
      exact (clear.trans (R.dmaStopIfBusy cleared)).trans (R.completeAndStart
        ((State.dmaStopIfBusy_moving _ i).trans ((State.moving_iff _ i).mpr hs)) OpsInvariant.parked_dmaStopIfBusy
        (R.inv.toOpsInvariant.dmaStopIfBusy (W := ∅) cleared))
    · exact clear

theorem countSlice {k : Len} (hp : s.peek i = some h) : s.stores B (s.countSlice i h k) := by
  refine R.quiet ((EpFrame.start i s).countSlice ((EpFrame.start i s).peekMem hp) k) ?_
  unfold State.countSlice
  dsimp only
  split <;> rfl

theorem dmaCheck (hm : s.moving i = true) (hp : s.parked i) (a : A s) : s.stores B (s.dmaCheck i h) := by
  unfold State.dmaCheck State.eocIncomplete
  split
  · exact R.completeAndStart hm hp a
  · split
    · exact .refl s
    · exact R.completeAndStart hm hp a

theorem dmaInterrupt (a : A s) : s.stores B (s.dmaInterrupt i) := by
  unfold State.dmaInterrupt
  extract_lets d s1
  have cleared : A s1 :=
    R.inv.setDmaPending (W := ∅) (R.inv.endSlice (W := ∅) rfl id ⟨_, _, rfl⟩ (R.inv.toOpsInvariant.scrambleSlice (W := ∅) a))
  have stopped : s.stores B s1 :=
    (R.scrambleSlice a).trans (R.quiet ((EpFrame.modEp (.start i _) _ rfl fun _ => id).setDmaPending false) rfl)
  have idleChan : (s1.ep i).dmaBusy = false := by simp [s1]
  clear_value s1 d
  split
  · exact stopped
  next h hp =>
  split
  · exact stopped
  next hs =>
  have moving : s1.moving i = true := by
    rw [State.moving_iff]
    tauto
  have check : ∀ k, k ≤ (s1.req h).inflight → s.stores B ((s1.countSlice i h k).dmaCheck i h) := fun k hk =>
    (stopped.trans (R.countSlice hp)).trans (R.dmaCheck (by simpa [State.moving] using moving)
      (.inl (by simpa using idleChan)) (R.inv.countSlice (.inl idleChan) hp moving hk cleared))
  extract_lets r s2
  split
  · next hb =>
    have part : (s1.req h).inflight - d.remcount ≤ (s1.req h).inflight := by
      have rem : d.remcount ≤ (s1.req h).inflight := hb.2
      bv_omega
    split
    · exact (stopped.trans (R.countSlice hp)).trans
        (R.quiet (EpFrame.start i _).dmaSlice (State.dmaSlice_mem _ _))
    · exact check _ part
  · split
    · exact check _ (BitVec.le_refl _)
    · exact stopped.trans (R.completeAndStart moving (.inl idleChan) cleared)

omit R in
/-- EP0 sends, so starting its queue stores nothing. -/
theorem startTransfer_ep0_mem (s : State) : (s.startTransfer 0).mem = s.mem := by
  unfold State.startTransfer
  rw [State.hasDma_zero, show s.isIn 0 = true from rfl]
  split
  · rfl
  · exact State.writeProcess_mem s 0

theorem applyAddress : s.stores B s.applyAddress := by
  rw [State.applyAddress_eq]
  exact (R.apart (s := s) (t := s.withAddress) rfl rfl rfl).trans
    (R.quiet ((EpFrame.start 0 s.withAddress).setEpState .idle).startTransfer (startTransfer_ep0_mem _))

theorem txDone (a : A s) : s.stores B (s.txDone i) := by
  have write : s.stores B (s.writeProcess i) := R.quiet (EpFrame.start i s).writeProcess (State.writeProcess_mem s i)
  unfold State.txDone
  split
  · next hs =>
    have moving : s.moving i = true := (State.moving_iff s i).mpr (.inl hs)
    split
    · have masked : A (s.modCtl i fun c => { c with txdoneIe := false }) :=
        R.inv.inert (W := ∅) (fun _ => rfl) (fun _ => rfl) a
      have mask : s.stores B (s.modCtl i fun c => { c with txdoneIe := false }) := R.modEp rfl rfl
      dsimp only
      split
      · exact mask
      · next h hp =>
        split
        · next hl =>
          obtain ⟨rest, hq⟩ := State.peek_some hp
          exact mask.trans (R.completeAndStart (by simpa [State.moving] using moving) (.inr (.inr ⟨h, rest, hq, hl⟩))
            masked)
        · exact mask
    · exact write
  · exact write
  · exact R.applyAddress
  all_goals exact .refl s

theorem rxReady (a₀ : A s₀) (hie : (s₀.ep i).ctl.rxrdyIe = true) (hc : s.cfg = s₀.cfg)
    (data : (s.ep 0).state = .ep0DataOut → s.stores B s.ep0DataOutPacket) (a : A s) : s.stores B (s.rxReady i) := by
  unfold State.rxReady
  split
  · next hs => exact R.of_frame (EpFrame.start i s).readPacket (R.packet a₀ hie hc hs a)
  · split
    · split
      · next hs => exact data hs
      · exact R.modEp rfl rfl
    · split
      · exact R.modEp rfl rfl
      · exact R.quiet (EpFrame.start i s).holdRx rfl

end StoreRule
end Sys2Proof.Machine
end

section
/-! SUPPORT. The walk of `StoreRule` through the requests on EP0 and the SETUP stage. -/

namespace Sys2Proof.Machine

namespace StoreRule

variable {A : State → Prop} {B : State → Word → Prop} {s s₀ t u : State} {i : EpIx} {h : Ref} (R : StoreRule A B)
include R

/-! ### EP0 -/

/-- A request's rule stores, while EP0 is `Idle`, only what `B` allows. -/
def Stores (A : State → Prop) (B : State → Word → Prop) (rule : Option (List Byte) → State → State × Ep0Outcome) : Prop :=
  OpsInvariant.Rule (fun _ => A) rule ∧ ∀ out s, A s → s.stores B (rule out s).1

theorem forward {out : Option (List Byte)} : s.stores B (s.forward out).1 := by
  unfold State.forward
  split
  · exact .refl s
  · exact R.apart rfl rfl rfl

theorem forwardUnless (c : Prop) [Decidable c] (o : Ep0Outcome) {out : Option (List Byte)} :
    s.stores B (if c then (s, o) else s.forward out).1 := by
  split
  · exact .refl s
  · exact R.forward

theorem forwardIf (c : Prop) [Decidable c] {out : Option (List Byte)} :
    s.stores B (if c then s.forward out else (s, .stall)).1 := by
  split
  · exact R.forward
  · exact .refl s

omit R in
theorem stores_getStatus : Stores A B reqGetStatus := by
  refine ⟨OpsInvariant.rule_getStatus, fun out s _ => ?_⟩
  unfold reqGetStatus
  dsimp only
  split_ifs
  · exact .refl s
  · exact .refl s
  · split <;> exact .refl s
  · exact .refl s
  · exact .refl s

theorem stores_clearFeature : Stores A B reqClearFeature := by
  refine ⟨R.inv.rule_clearFeature, fun out s a => ?_⟩
  unfold reqClearFeature
  dsimp only
  split
  · split
    · exact .refl s
    · exact R.resumeEp a
  · exact R.forwardUnless _ _

theorem stores_setFeature : Stores A B reqSetFeature := by
  refine ⟨R.inv.rule_setFeature, fun out s a => ?_⟩
  unfold reqSetFeature
  dsimp only
  split
  · split
    · exact .refl s
    · exact R.haltEp a
  · exact R.forwardUnless _ _

theorem stores_setAddress : Stores A B reqSetAddress := by
  refine ⟨R.inv.rule_setAddress, fun out s _ => ?_⟩
  unfold reqSetAddress
  dsimp only
  split
  · exact R.apart rfl rfl rfl
  · exact .refl s

theorem stores_getDescriptor : Stores A B reqGetDescriptor := ⟨R.inv.rule_getDescriptor, fun _ _ _ => R.forwardIf _⟩
theorem stores_setDescriptor : Stores A B reqSetDescriptor := ⟨R.inv.rule_setDescriptor, fun _ _ _ => R.forwardIf _⟩
theorem stores_getConfiguration : Stores A B reqGetConfiguration :=
  ⟨R.inv.rule_getConfiguration, fun _ _ _ => R.forwardIf _⟩
theorem stores_setConfiguration : Stores A B reqSetConfiguration :=
  ⟨R.inv.rule_setConfiguration, fun _ _ _ => R.forwardIf _⟩
theorem stores_getInterface : Stores A B reqGetInterface := ⟨R.inv.rule_getInterface, fun _ _ _ => R.forward⟩
theorem stores_setInterface : Stores A B reqSetInterface := ⟨R.inv.rule_setInterface, fun _ _ _ => R.forward⟩
theorem stores_nonstandard : Stores A B reqNonstandard := ⟨R.inv.rule_nonstandard, fun _ _ _ => R.forward⟩
omit R in
theorem stores_synchFrame : Stores A B reqSynchFrame := ⟨OpsInvariant.rule_synchFrame, fun _ s _ => .refl s⟩
omit R in
theorem stores_unknownStandard : Stores A B reqUnknownStandard :=
  ⟨OpsInvariant.rule_unknownStandard, fun _ s _ => .refl s⟩

theorem stores_requestRule (p : SetupPacket) : Stores A B (requestRule p) := by
  unfold requestRule
  split
  · exact R.stores_nonstandard
  · split
    · exact stores_getStatus
    · exact R.stores_clearFeature
    · exact R.stores_setFeature
    · exact R.stores_setAddress
    · exact R.stores_getDescriptor
    · exact R.stores_setDescriptor
    · exact R.stores_getConfiguration
    · exact R.stores_setConfiguration
    · exact R.stores_getInterface
    · exact R.stores_setInterface
    · exact stores_synchFrame
    · exact stores_unknownStandard

theorem ep0Finish {p : SetupPacket} {o : Ep0Outcome} (a : A s) : s.stores B (s.ep0Finish p o) := by
  cases o with
  | success resp => exact R.quiet (((EpFrame.start 0 s).fifoWrite _).handTx.setEpState _) rfl
  | address => exact R.quiet (((EpFrame.start 0 s).fifoWrite _).handTx.setEpState _) rfl
  | dispatched => exact .refl s
  | stall => exact R.stallEp a

theorem runRequest {rule : Option (List Byte) → State → State × Ep0Outcome} (hr : Stores A B rule)
    {out : Option (List Byte)} (hs : (s.ep 0).state = .idle) (a : A s) : s.stores B (s.runRequest rule out) :=
  (hr.2 out s a).trans (R.ep0Finish (hr.1 out s hs a).1)

theorem ep0DataOutPacket (hs : (s.ep 0).state = .ep0DataOut) (a : A s) : s.stores B s.ep0DataOutPacket := by
  unfold State.ep0DataOutPacket
  extract_lets c n r s1
  have read : s.stores B r.2 := R.quiet ((EpFrame.start 0 s).fifoReadRx n.toNat) rfl
  have kept : A s1 := R.inv.releaseRx (W := ∅) (R.inv.modDev (W := ∅) (fun _ => rfl) (R.inv.fifoReadRx (W := ∅) a))
  have collected : s.stores B s1 := (read.trans (R.apart (t := r.2.modDev _) rfl rfl rfl)).trans (R.modEp rfl rfl)
  have state : (s1.ep 0).state = .ep0DataOut := by
    rw [← hs]
    simp [s1, r, State.fifoReadRx]
  clear_value s1
  split
  · have idle : A (s1.setEpState 0 .idle) := by
      refine R.inv.settle (W := Set.univ) (.of_work ?_ rfl) ⟨nofun, nofun⟩
        (.inl (State.not_moving_of_state state nofun nofun)) (fun _ => .inl (Set.mem_univ 0)) kept
      rintro ⟨st, ha, -, fill, tx⟩
      exact ⟨by rw [st, state]; rfl, ha, fun h => absurd rfl h, fill, tx⟩
    have left : s1.stores B (s1.setEpState 0 .idle) := R.modEp rfl rfl
    have run := (collected.trans left).trans (R.runRequest (R.stores_requestRule s1.dev.ctrl)
      (out := some (s1.dev.scratch.take s1.dev.scratchCount.toNat)) (by simp) idle)
    unfold State.startEp0
    split
    · exact run.trans (R.quiet (EpFrame.start 0 _).startTransfer (startTransfer_ep0_mem _))
    · exact run
  · exact collected

theorem setupIdle {p : SetupPacket} : s.stores B (s.setupIdle p) := by
  have noted : s.stores B (s.modDev fun d => { d with ctrl := p }) := R.apart rfl rfl rfl
  have drained := noted.trans (R.quiet
    (((EpFrame.start 0 _).ackSetup.drain .ok).modEp (fun e => { e with txnullpkt := false }) rfl fun _ => id).withdrawTx
    (State.drain_mem ((s.modDev fun d => { d with ctrl := p }).ackSetup 0) 0 .ok))
  exact (drained.trans (R.apart (t := s.setupEnd p) rfl rfl rfl)).trans (R.modEp rfl rfl)

theorem setupAccept {go : State → State} {p : SetupPacket}
    (hgo : ∀ v : State, (v.ep 0).state = .idle → A v → v.stores B (go v)) (a : A s) : s.stores B (s.setupAccept p go) := by
  have ready : A (s.setupIdle p) := R.inv.setupIdle a
  have ended : s.stores B (s.setupIdle p) := R.setupIdle
  rw [State.setupAccept_eq]
  split
  · split
    · exact ended.trans (R.stallEp ready)
    · exact ended.trans (R.modEp rfl rfl)
  · exact ended.trans (hgo _ (congrArg Endpoint.state (State.modEp_ep_same _ _ _)) ready)

theorem discardSetup {n : Nat} : s.stores B ((s.discardSetup i n).ackSetup i) :=
  R.quiet ((EpFrame.start i s).discardSetup n).ackSetup rfl

theorem setupReceived (a : A s) : s.stores B s.setupReceived := by
  unfold State.setupReceived
  dsimp only
  split
  · exact R.discardSetup
  · split
    · exact R.discardSetup.trans (R.stallEp (R.inv.ackSetup (W := ∅) (R.inv.discardSetup (W := ∅) a)))
    · have read : s.stores B (s.fifoReadSetup 0 8).2 :=
        R.quiet (EpFrame.draw (EpFrame.modEp (.start 0 s) _ rfl fun _ => id) _) rfl
      exact read.trans (R.setupAccept (fun v hs a => R.runRequest (R.stores_requestRule _) hs a)
        (R.inv.fifoReadSetup (W := ∅) a))

theorem receiveSetup {rule : Option (List Byte) → State → State × Ep0Outcome} (hr : Stores A B rule) {p : SetupPacket}
    (a : A s) : NextHas (s.confined B) (.next (s.receiveSetup p rule)) := by
  refine .next (State.stores.toconfined ?_)
  unfold State.receiveSetup
  split
  · exact R.discardSetup
  · have discarded : s.stores B (s.discardSetup 0 8) := R.modEp rfl rfl
    exact discarded.trans (R.setupAccept (fun v hs a => R.runRequest hr hs a) (R.inv.discardSetup (W := ∅) a))

end StoreRule
end Sys2Proof.Machine
end

section
/-! SUPPORT. The walk of `StoreRule` through the handlers of a pass. -/

namespace Sys2Proof.Machine

namespace StoreRule

variable {A : State → Prop} {B : State → Word → Prop} {s s₀ t u : State} {i : EpIx} {h : Ref} (R : StoreRule A B)
include R

/-! ### The handlers of a pass -/

theorem epInterrupt (a : A s) : s.stores B (s.epInterrupt i) := by
  unfold State.epInterrupt
  extract_lets bits s1 s2 s3
  have acked : s.stores B (s.ackTxdone i) := R.quiet (EpFrame.start i s).ackTxdone rfl
  have tx : s.stores B s1 ∧ A s1 := by
    unfold s1
    split
    · have ack : A (s.ackTxdone i) := R.inv.ackTxdone (W := ∅) a
      exact ⟨acked.trans (R.txDone ack), R.inv.txDone ack⟩
    · exact ⟨.refl s, a⟩
  have cfg : s1.cfg = s.cfg :=
    congrArg Prod.fst (ifBit_fixed (s := s) bits.txdone ((txDone_fixed i (s.ackTxdone i)).trans rfl))
  clear_value s1
  have rx : s.stores B s2 ∧ A s2 := by
    unfold s2
    split
    · next hb =>
      have hie : (s.ep i).ctl.rxrdyIe = true := by
        simp only [bits, Endpoint.enabledSta, Bool.and_eq_true] at hb
        exact hb.2
      exact ⟨tx.1.trans (R.rxReady a hie cfg (fun hs => R.ep0DataOutPacket hs tx.2) tx.2), R.inv.rxReady a hie cfg tx.2⟩
    · exact tx
  clear_value s2
  have stall : s.stores B s3 ∧ A s3 := by
    unfold s3
    split
    · have ack : A (s2.ackStallsent i) := R.inv.ackStallsent (W := ∅) rx.2
      have acked : s2.stores B (s2.ackStallsent i) := R.quiet (EpFrame.start i s2).ackStallsent rfl
      exact ⟨(rx.1.trans acked).trans (R.stallSent ack), R.inv.stallSent ack⟩
    · exact rx
  clear_value s3
  split
  · refine stall.1.trans ?_
    unfold State.setupStatus
    split
    · exact R.setupReceived stall.2
    · exact R.discardSetup
  · exact stall.1

omit R in
theorem forEps {f : EpIx → State → State} (hf : ∀ i s, A s → s.stores B (f i s) ∧ A (f i s)) (is : List EpIx)
    (a : A s) : s.stores B (s.forEps is f) ∧ A (s.forEps is f) := by
  induction is generalizing s with
  | nil => exact ⟨.refl s, a⟩
  | cons i rest ih =>
    obtain ⟨first, kept⟩ := hf i s a
    obtain ⟨others, done⟩ := ih kept
    exact ⟨first.trans others, done⟩

theorem notify {c : Callback} : s.stores B (s.notify c) := by
  unfold State.notify
  split
  · exact .refl s
  · exact R.apart rfl rfl rfl

theorem busReset (a : A s) : s.stores B s.busReset := by
  have acked : s.stores B { s with intPending := { s.intPending with busreset := false } } := R.apart rfl rfl rfl
  have noted : s.stores B s.noteBusReset := acked.trans R.notify
  have kept : A s.noteBusReset := R.inv.notify (W := ∅) (R.inv.view (W := ∅) a rfl)
  have reset : s.noteBusReset.stores B s.noteBusReset.resetAll :=
    (forEps (f := fun i s => s.resetEp i) (fun i s a => ⟨R.quell a, R.resetEp a⟩) s.noteBusReset.epList kept).1
  have disabled : ∀ is (u : State), u.stores B (u.forEps is fun i s => s.disableAfterReset i) := by
    intro is
    induction is with
    | nil => exact .refl
    | cons i rest ih => exact fun u => State.stores.trans (R.modEp rfl rfl) (ih (u.disableAfterReset i))
  have ep0 : ∀ u : State, u.stores B u.defaultEp0.defaultDevice := fun u =>
    (R.quiet (t := u.defaultEp0)
      (EpFrame.setEpState (EpFrame.unmaskEpIrq (EpFrame.modEp (.start 0 u) _ rfl fun _ => id)) .idle)
      (State.unmaskEpIrq_mem' _ 0)).trans (R.apart rfl rfl rfl)
  rw [State.busReset_eq]
  exact ((noted.trans reset).trans (disabled _ _)).trans (ep0 _)

theorem deviceResume : s.stores B s.deviceResume := by
  have restored : s.stores B (s.modDev fun d => { d with state := d.prevstate }) := R.apart rfl rfl rfl
  exact (restored.trans R.notify).trans (R.apart (t := s.deviceResume) rfl rfl rfl)

theorem suspend : s.stores B s.suspend := by
  unfold State.suspend
  dsimp only
  split
  · exact R.apart rfl rfl rfl
  · have noted : s.stores B (State.modDev { s with intPending := { s.intPending with suspend := false } }
        fun d => { d with prevstate := d.state }) := R.apart rfl rfl rfl
    exact (noted.trans (R.notify (c := .onSuspend))).trans (R.apart rfl rfl rfl)

theorem resume : s.stores B s.resume := by
  have acked : s.stores B { s with intPending := { s.intPending with resume := false } } := R.apart rfl rfl rfl
  unfold State.resume
  dsimp only
  split
  · exact acked.trans R.deviceResume
  · exact acked

theorem handle {b : Source} (a : A s) : s.stores B (s.handle b) := by
  cases b with
  | suspend => exact R.suspend
  | sof => exact R.apart rfl rfl rfl
  | resume => exact R.resume
  | busReset => exact R.busReset a
  | upResume => exact R.apart rfl rfl rfl
  | dma c => exact R.dmaInterrupt a
  | ep i => exact R.epInterrupt a

theorem dispatchStep {rest : List Source} {below : List Ctx} (a : A s) : s.stores B (s.dispatchStep rest below) := by
  unfold State.dispatchStep
  split
  · unfold State.resample
    split <;> exact R.apart rfl rfl rfl
  · next b later _ =>
    have entered : s.stores B { s with stack := .dispatch later :: below } := R.apart rfl rfl rfl
    exact entered.trans (R.handle (R.inv.view (W := ∅) a rfl))

end StoreRule
end Sys2Proof.Machine
end

section
/-! SUPPORT. The walk of `StoreRule` through the instructions. -/

namespace Sys2Proof.Machine

namespace StoreRule

variable {A : State → Prop} {B : State → Word → Prop} {s s₀ t u : State} {i : EpIx} {h : Ref} (R : StoreRule A B)
include R

/-! ### The class driver's operations -/

omit R in
theorem guard {c : Prop} [Decidable c] {r : Result} {o : Host.Outcome State Fault Refusal}
    (H : NextHas (s.confined B) o) : NextHas (s.confined B) (if c then .next (s.answer r) else o) := by
  split
  · exact .next (.of_mem rfl)
  · exact H

omit R in
theorem next {r : Result} (c : s.confined B t) : NextHas (s.confined B) (.next (t.answer r)) := .next (c.congr rfl)

theorem configureEndpoint {d : EpDesc} (a : A s) : NextHas (s.confined B) (execConfigureEndpoint i d s) := by
  refine guard ?_
  split
  · exact next (.of_mem rfl)
  · next hb =>
    have still : s.moving i = false := by
      revert hb
      unfold State.inTransfer State.moving
      cases (s.ep i).state <;> simp
    have programmed : A (s.programEp i d) := R.inv.programEp (W := ∅) still a
    have program : s.stores B (s.programEp i d) := R.quiet ((EpFrame.start i s).programEp d) (State.programEp_mem s i d)
    exact guard (guard (next (program.trans (R.startTransfer programmed)).toconfined))

/-- SUBMIT stores nothing but what starting the queue does, the request already queued (R130). -/
theorem submitRequest (queued : s.accepts i h → ∀ x, B (s.queued i h) x → B s x) (a : A s) :
    NextHas (s.confined B) (execSubmit i h s) := by
  rcases execSubmit_cases s i h with ⟨r, refused⟩ | ⟨ha, accepted⟩
  · rw [refused]
    exact next (.of_mem rfl)
  · have enqueued : s.stores B (s.queued i h) := ⟨.of_mem rfl, queued ha⟩
    rw [accepted]
    refine next ?_
    split
    · exact (enqueued.trans (R.startTransfer (R.inv.submit ha a))).toconfined
    · exact enqueued.toconfined

theorem cancelRequest (a : A s) : NextHas (s.confined B) (execCancel i h s) := by
  have cancelled : s.stores B ((((s.maskEpIrq i).dmaStopIfBusy i).cancelAll i .shutdown).postCancel i) :=
    (R.cancelled a).trans (R.quiet (EpFrame.start i _).postCancel rfl)
  refine guard (next ?_)
  split
  · exact cancelled.toconfined.congr (State.unmaskEpIrq_mem' _ i)
  · exact cancelled.toconfined

theorem unbind (a : A s) : NextHas (s.confined B) (execUnbind s) := by
  unfold execUnbind
  refine guard ?_
  extract_lets s1 s2 s3
  have disabled : s.stores B s1 :=
    (forEps (f := fun i s => s.disableEp i) (fun i s a => ⟨R.disableEp a, R.inv.toOpsInvariant.disableEp (W := ∅) a⟩) _ a).1
  clear_value s1
  have mem : s3.mem = s1.mem := by
    have cancelled : s2.mem = s1.mem := State.cancelAll_mem (s1.maskEpIrq 0) 0 .shutdown
    unfold s3
    split
    · exact (State.unmaskEpIrq_mem' _ 0).trans cancelled
    · exact cancelled
  exact next (disabled.toconfined.congr mem)

omit R in
theorem wakeup : NextHas (s.confined B) (execWakeup s) := by
  have waited : ∀ (k : Nat) (u : State), (spinRwake k u).mem = u.mem := by
    intro k
    induction k with
    | zero => exact fun _ => rfl
    | succ k ih =>
      intro u
      have polled : u.pollRwake.mem = u.mem := by
        unfold State.pollRwake
        split
        · split <;> rfl
        · rfl
      unfold spinRwake
      split
      · exact (ih _).trans polled
      · rfl
  refine next (.of_mem ((waited _ _).trans ?_))
  show (if s.dev.state = .suspended then s.deviceResume else s).mem = s.mem
  split
  · exact State.notify_mem (s.modDev fun d => { d with state := d.prevstate }) .onResume
  · rfl

/-! ### The stimuli -/

omit R in
theorem atChan {f : State → State} (hf : s.stores B (f s)) : NextHas (s.confined B) (.next (s.atChan i f)) := by
  refine .next ?_
  unfold State.atChan
  split
  · exact hf.toconfined.congr rfl
  · exact .of_mem rfl

omit R in
theorem atEp {f : State → State} (hf : (f s).mem = s.mem) : NextHas (s.confined B) (.next (s.atEp i f)) := by
  refine .next ?_
  unfold State.atEp
  split
  · exact .of_mem hf
  · exact .of_mem rfl

theorem busDmaEob {rem : BitVec 16} (a : A s) : NextHas (s.confined B) (execBusDmaEob i rem s) := by
  refine atChan ?_
  dsimp only
  split
  · exact (R.moveSlice a (by bv_omega)).trans (R.modEp rfl rfl)
  · exact (R.scrambleSlice a).trans (R.modEp rfl rfl)

theorem busDmaEoc (a : A s) : NextHas (s.confined B) (execBusDmaEoc i s) :=
  atChan ((R.moveSlice a (Nat.le_refl _)).trans (R.modEp rfl rfl))

theorem busDmaErr (a : A s) : NextHas (s.confined B) (execBusDmaErr i s) :=
  atChan ((R.scrambleSlice a).trans (R.modEp rfl rfl))

omit R in
theorem busRxpkt {bytes : List Byte} : NextHas (s.confined B) (execBusRxpkt i bytes s) := by
  unfold execBusRxpkt
  split
  · exact .refused _
  · split
    · exact .next (.of_mem rfl)
    · exact atEp rfl

omit R in
theorem busTxdone : NextHas (s.confined B) (execBusTxdone i s) := by
  refine atEp ?_
  split <;> rfl

omit R in
theorem busBusreset : NextHas (s.confined B) (execBusBusreset s) := by
  have dropped : ∀ is (u : State), (u.forEps is fun i s => s.modEp i Endpoint.dropSession).mem = u.mem := by
    intro is
    induction is with
    | nil => exact fun _ => rfl
    | cons i rest ih => exact fun u => ih (u.modEp i Endpoint.dropSession)
  exact .next (.of_mem (dropped _ s))

/-! ### Every instruction -/

theorem exec (ins : Instr) (submits : ∀ i h, ins = .submit i h → s.accepts i h → ∀ x, B (s.queued i h) x → B s x)
    (a : A s) : NextHas (s.confined B) (exec ins s) := by
  cases ins with
  | configureEndpoint i d => exact R.configureEndpoint a
  | disableEndpoint i => exact guard (next (R.disableEp a).toconfined)
  | allocateRequest => 
    show NextHas _ (execAllocateRequest s)
    unfold execAllocateRequest
    dsimp only
    split <;> exact .next (.of_mem rfl)
  | freeRequest i h =>
    refine guard ?_
    split
    · exact .fault _
    · exact next (.of_mem rfl)
  | submit i h => exact R.submitRequest (submits i h rfl) a
  | cancel i h => exact R.cancelRequest (h := h) a
  | stall i => exact guard (next (R.stallEp a).toconfined)
  | resumeStall i => exact guard (next (R.resumeEp a).toconfined)
  | allocateEndpoint n b ty =>
    show NextHas _ (execAllocateEndpoint n b ty s)
    unfold execAllocateEndpoint
    split
    · split <;> exact .next (.of_mem rfl)
    · split <;> exact .next (.of_mem rfl)
  | freeEndpoint i => exact guard (next ((R.disableEp a).toconfined.congr rfl))
  | getFrameNumber => exact .next (.of_mem rfl)
  | wakeup => exact wakeup
  | setSelfPowered b => exact next (.of_mem rfl)
  | setPullup b => 
    refine next (.of_mem ?_)
    split <;> rfl
  | bind d => exact guard (guard (next (.of_mem rfl)))
  | unbind => exact R.unbind a
  | invalidCommand w => exact next (.of_mem rfl)
  | busBusreset => exact busBusreset
  | busSuspend => exact .next (.of_mem rfl)
  | busResume => exact .next (.of_mem rfl)
  | busSof f => exact .next (.of_mem rfl)
  | busUpresume => exact .next (.of_mem rfl)
  | busSetup i q => exact atEp rfl
  | busRxpkt i bytes => exact busRxpkt
  | busTxdone i => exact busTxdone
  | busStallsent i => exact atEp rfl
  | busDmaEob c rem => exact R.busDmaEob a
  | busDmaEoc c => exact R.busDmaEoc a
  | busDmaErr c => exact R.busDmaErr a
  | busRwakeDone => exact .next (.of_mem rfl)
  | setupGetStatus p => exact R.receiveSetup stores_getStatus a
  | setupClearFeature p => exact R.receiveSetup R.stores_clearFeature a
  | setupSetFeature p => exact R.receiveSetup R.stores_setFeature a
  | setupSetAddress p => exact R.receiveSetup R.stores_setAddress a
  | setupGetDescriptor p => exact R.receiveSetup R.stores_getDescriptor a
  | setupSetDescriptor p => exact R.receiveSetup R.stores_setDescriptor a
  | setupGetConfiguration p => exact R.receiveSetup R.stores_getConfiguration a
  | setupSetConfiguration p => exact R.receiveSetup R.stores_setConfiguration a
  | setupGetInterface p => exact R.receiveSetup R.stores_getInterface a
  | setupSetInterface p => exact R.receiveSetup R.stores_setInterface a
  | setupSynchFrame p => exact R.receiveSetup stores_synchFrame a
  | setupUnknownStandard code p => exact R.receiveSetup stores_unknownStandard a
  | setupNonstandardClass code p => exact R.receiveSetup R.stores_nonstandard a
  | setupNonstandardVendor code p => exact R.receiveSetup R.stores_nonstandard a
  | setupNonstandardReservedType code p => exact R.receiveSetup R.stores_nonstandard a

end StoreRule
end Sys2Proof.Machine
end

section
/-! SUPPORT. The walk of `StoreRule` through the agents, up to one step of the machine. -/

namespace Sys2Proof.Machine

namespace StoreRule

variable {A : State → Prop} {B : State → Word → Prop} {s s₀ t u : State} {i : EpIx} {h : Ref} (R : StoreRule A B)
include R

/-! ### Every step -/

omit R in
theorem release {o : Host.Outcome State Fault Refusal} (H : NextHas (s.confined B) o) :
    NextHas (s.confined B) (releaseOutcome o) := by
  cases o with
  | next t => exact .next ((H t rfl).congr rfl)
  | fault f => exact .fault f
  | refused r => exact .refused r

theorem runRecord {port : Port} {bytes : List Byte} {rest : List Input}
    (submits : ∀ i h more, decode port bytes = .ok (.submit i h, more) → ∀ u : State, u.accepts i h →
      ∀ x, B (u.queued i h) x → B u x)
    (a : A s) : NextHas (s.confined B) (runRecord port bytes rest s) := by
  have taken : s.stores B { s with input := rest } := R.apart rfl rfl rfl
  unfold Machine.runRecord
  split
  · next ins more decoded =>
    refine release fun t e => taken.then (R.exec (s := { s with input := rest }) ins (fun i h he => ?_)
      (R.inv.view (W := ∅) a rfl) t e)
    subst he
    exact submits i h _ decoded _
  · exact .refused _

theorem onSetupReturn {r : Result} (a : A s) : s.stores B (s.onSetupReturn r) := by
  unfold State.onSetupReturn
  split
  · exact R.stallEp a
  · split
    · unfold State.configureDevice
      split
      · exact R.apart rfl rfl rfl
      · exact .refl s
    · exact .refl s

theorem returnCallback {r : Result} (a : A s) : s.confined B (returnCallback r s) := by
  unfold Machine.returnCallback
  split
  · next below _ =>
    have left : s.stores B { s with stack := below } := R.apart rfl rfl rfl
    exact (left.trans (R.onSetupReturn (R.inv.view (W := ∅) a rfl))).toconfined.congr rfl
  · exact .of_mem rfl
  · exact .of_mem rfl

omit R in
theorem pokeBytes_wf {a : Word} {bytes : List Byte} (w : Memory.wf s.mem = true) :
    Memory.wf (pokeBytes a bytes s).mem = true := by
  induction bytes generalizing a s with
  | nil => exact w
  | cons b rest ih =>
    unfold pokeBytes
    split
    · exact ih (writeByte_wf _ _ _ a.isLt w)
    · exact ih (writeByte_wf _ _ _ a.isLt w)

omit R in
theorem enterDispatch_mem (s : State) : s.enterDispatch.mem = s.mem := by
  unfold State.enterDispatch
  split <;> rfl

/-- What the environment's next action needs: SUBMIT queues only what `B` allows, and the class driver writes only where
`B` allows all. -/
structure Allows (B : State → Word → Prop) (s : State) : Prop where
  submits : (∃ bytes rest, s.input = .cmd bytes :: rest) → ∀ (u : State) i h, u.accepts i h →
    ∀ x, B (u.queued i h) x → B u x
  pokes : (∃ a bytes rest, s.input = .poke a bytes :: rest) → ∀ x, B s x

theorem environmentStep (c : Allows B s) (a : A s) : NextHas (s.confined B) (environmentStep s) := by
  unfold Machine.environmentStep
  split
  · exact .next (.of_mem (enterDispatch_mem s))
  · next bytes rest hi => exact R.runRecord (fun i h _ _ u => c.submits ⟨bytes, rest, hi⟩ u i h) a
  · next hi => exact R.runRecord (fun i h more hd => absurd hd (decode_stimulus_ne_submit _ i h more)) a
  · exact .next (.of_mem (enterDispatch_mem _))
  · next r rest _ =>
    have taken : s.stores B { s with input := rest } := R.apart rfl rfl rfl
    exact .next (taken.then (R.returnCallback (R.inv.view (W := ∅) a rfl)))
  · next h buf len nullpkt cb rest _ =>
    unfold setRequest
    split
    · exact .fault _
    · exact .next (.of_mem rfl)
  · next p bytes rest hi =>
    exact .next ⟨fun w => pokeBytes_wf w, fun x hx => absurd (c.pokes ⟨p, bytes, rest, hi⟩ x) hx⟩

/-- A step stores only what `B` allows. -/
theorem step (c : Allows B s ∨ ∃ rest below, s.stack = .dispatch rest :: below) (a : A s) (h : step s = .next t) :
    s.confined B t := by
  have kept : NextHas (s.confined B) (machineStep s) := by
    unfold machineStep
    split
    · exact .next (.of_mem rfl)
    · split
      · exact R.runRecord (fun i h more hd => absurd hd (decode_stimulus_ne_submit _ i h more)) a
      · exact .next ((R.dispatchStep a).toconfined.congr rfl)
    · next hs => exact R.environmentStep (c.resolve_right (by rw [hs]; rintro ⟨_, _, e⟩; cases e)) a
    · next hs => exact R.environmentStep (c.resolve_right (by rw [hs]; rintro ⟨_, _, e⟩; cases e)) a
  exact kept t h

end StoreRule
end Sys2Proof.Machine
end

section
/-! SUPPORT. The canonical form is kept by every step (O50), and memory is written only inside the buffers of queued requests
(O57): the walk of `StoreRule`, with nothing asked of the addresses for the first and the counts of requests for the
second. -/

namespace Sys2Proof.Machine

variable {s t : State} {i : EpIx} {h : Ref}

/-! ### The canonical form (O50) -/

theorem stepInvariant_true : StepInvariant fun _ _ => True := by
  constructor
  · constructor <;> intros <;> trivial
  all_goals intros; trivial

/-- Every address is allowed. -/
theorem storeRule_everywhere : StoreRule (fun _ => True) fun _ _ => True where
  inv := stepInvariant_true
  same _ _ _ _ := trivial
  frame _ _ _ := trivial
  slice _ _ _ _ := trivial
  room _ _ _ _ := trivial
  packet {_ s i} _ _ _ _ _ := ⟨State.readPacket_wf s i, fun _ hx => absurd trivial hx⟩
  resetEp _ := trivial

/-- Settles O50: whatever a step stores, it stores by `writeByte`. -/
theorem memoryStaysCanonical : Obligations.MemoryStaysCanonical := fun _ _ w e =>
  (storeRule_everywhere.step (.inl ⟨fun _ _ _ _ _ _ _ => trivial, fun _ _ => trivial⟩) trivial e).canonical w

/-! ### Buffers of queued requests -/

/-- Address `x` lies in the buffer of a queued request. -/
def State.queuedBuffer (s : State) (x : Word) : Prop :=
  ∃ i h, h ∈ (s.ep i).queue ∧ inRange (s.req h).buf (s.req h).len.toNat x = true

/-- Bytes of a buffer from an offset on that do not pass its end lie in the buffer. -/
theorem inRange_of_bufAt {buf x : Word} {off len : Len} {n : Nat} (hn : off.toNat + n ≤ len.toNat)
    (hx : inRange (bufAt buf off) n x = true) : inRange buf len.toNat x = true := by
  unfold inRange bufAt at *
  simp only [decide_eq_true_eq] at *
  have place : (x - buf).toNat ≤ (x - (buf + off.setWidth 32)).toNat + off.toNat := by
    have wide : (off.setWidth 32).toNat = off.toNat := by
      rw [BitVec.toNat_setWidth]
      exact Nat.mod_eq_of_lt (by omega)
    bv_omega
  omega

theorem EpFrame.queuedBuffer (F : EpFrame i (s.ep i).queue s t) (x : Word) (hx : t.queuedBuffer x) : s.queuedBuffer x := by
  obtain ⟨j, h, hq, hr⟩ := hx
  obtain ⟨buf, len, -⟩ := F.operands h
  rw [buf, len] at hr
  by_cases hj : j = i
  · subst hj
    exact ⟨j, h, F.queue h hq, hr⟩
  · rw [F.other j hj] at hq
    exact ⟨j, h, hq, hr⟩

/-- The bytes of a queued request that are not counted yet lie in its buffer. -/
theorem Request.counted.room {q : Request} (c : q.counted) {x : Word}
    (hx : inRange (bufAt q.buf q.xfrd) (q.len - q.xfrd).toNat x = true) : inRange q.buf q.len.toNat x = true := by
  have := c.xfrd_le
  exact inRange_of_bufAt (by bv_omega) hx

theorem State.accounted.slice_queuedBuffer (a : s.accounted) (run : (s.ep i).chan.running = true) (x : Word)
    (hx : inRange (s.ep i).chan.addr (s.ep i).chan.count.toNat x = true) : s.queuedBuffer x := by
  obtain ⟨-, -, -, h, head, count, addr⟩ := a.slice i run
  have queued : h ∈ (s.ep i).queue := List.mem_of_mem_head? head
  rw [count, addr] at hx
  exact ⟨i, h, queued, inRange_of_bufAt ((a.at i).counts h queued) hx⟩

/-- Starting reads stores a held packet in the buffer of a queued request. -/
theorem readLoop_confined (k : Nat) (hk : (s.ep i).queue.length < k)
    (counts : ∀ h, h ∈ (s.ep i).queue → (s.req h).counted) : s.confined State.queuedBuffer (readLoop i k s) := by
  have memory := readLoop_memory s i k hk
  split at memory
  · exact .of_mem memory
  · next h found =>
    have queued : h ∈ (s.ep i).queue := List.mem_of_find?_eq_some found
    refine .of_range (readLoop_wf s i k) memory fun x hx => ⟨i, h, queued, (counts h queued).room ?_⟩
    exact inRange_mono (lenMin_le_right _ _) hx

/-- A received packet is stored in the buffer of the head request, and a packet held besides in that of the next. -/
theorem State.accounted.readPacket_confined (a : s.accounted) (hd : s.hasDma i = false)
    (hs : (s.ep i).state = .receiving) : s.confined State.queuedBuffer (s.readPacket i) := by
  unfold State.readPacket
  split
  · exact .of_mem rfl
  next h hp =>
  have queued : h ∈ (s.ep i).queue := List.mem_of_mem_head? hp
  have frame := (EpFrame.start i s).readBank queued
  have copied : s.confined State.queuedBuffer (s.readBank i h) :=
    .of_range (State.readBank_wf s i h) (State.readBank_memory s i h) fun x hx =>
      ⟨i, h, queued, ((a.at i).counts h queued).room (inRange_mono (lenMin_le_right _ _) hx)⟩
  dsimp only
  split
  · obtain ⟨read, -, -⟩ := ((a.at i).between a.owned ((a.at i).parked_of_noDma hd)).readBank hp
      ((a.at i).reading hs hd h hp)
    have next := (read.complete .ok).1.setEpState .idle
    have done : s.stores State.queuedBuffer (((s.readBank i h).complete i .ok).setEpState i .idle) :=
      ⟨copied.congr (State.complete_mem _ i .ok), EpFrame.queuedBuffer ((frame.complete .ok).setEpState .idle)⟩
    exact done.then (readLoop_confined _ (Nat.lt_succ_self _) next.counts)
  · exact copied

/-! ### The rule (O57) -/

/-- Memory is written where the buffers of queued requests are. -/
theorem StoreRule.of_queuedBuffer {B : State → Word → Prop}
    (same : ∀ {s t : State}, t.eps = s.eps → t.reqs = s.reqs → ∀ x, B t x → B s x)
    (frame : ∀ {s t i}, EpFrame i (s.ep i).queue s t → ∀ x, B t x → B s x)
    (allows : ∀ {s : State}, s.accounted → ∀ x, s.queuedBuffer x → B s x) : StoreRule State.accounted B where
  inv := stepInvariant_accounted
  same := same
  frame := frame
  slice a run x hx := allows a x (a.slice_queuedBuffer run x hx)
  room {_ i h} a hh x hx := allows a x ⟨i, h, hh, ((a.at i).counts h hh).room hx⟩
  packet {_ _ i} a₀ hie hc hs a := by
    have stored := a.readPacket_confined ((State.hasDma_congr hc i).trans (a₀.rxIe i hie)) hs
    exact ⟨stored.canonical, fun x hx => stored.outside x fun hq => hx (allows a x hq)⟩
  resetEp a := a.resetEp

theorem State.accounted.inBuffer_of_queuedBuffer (a : s.accounted) (x : Word) (hx : s.queuedBuffer x) :
    s.inBuffer (fun q => q.owner = .engine) x := by
  obtain ⟨i, h, hq, hr⟩ := hx
  obtain ⟨known, engine⟩ := a.owned.queued i h hq
  exact ⟨h, known, engine, hr⟩

/-- The buffers of queued requests. -/
theorem storeRule_queuedBuffer : StoreRule State.accounted State.queuedBuffer :=
  .of_queuedBuffer
    (fun eps reqs x ⟨i, h, hq, hr⟩ => by
      rw [State.req_congr reqs] at hr
      unfold State.ep at hq
      rw [eps] at hq
      exact ⟨i, h, hq, hr⟩)
    EpFrame.queuedBuffer fun _ _ => id

/-- The buffers of all requests. -/
theorem storeRule_inBuffer : StoreRule State.accounted fun s => s.inBuffer fun _ => True :=
  .of_queuedBuffer
    (fun eps reqs x ⟨h, known, _, hr⟩ => by
      rw [State.req_congr reqs] at hr
      rw [State.hasReq_congr (congrArg (List.map Prod.fst) reqs)] at known
      exact ⟨h, known, trivial, hr⟩)
    (fun F x ⟨h, known, _, hr⟩ => by
      obtain ⟨buf, len, -⟩ := F.operands h
      rw [buf, len] at hr
      rw [State.hasReq_congr F.handles] at known
      exact ⟨h, known, trivial, hr⟩)
    fun a x hx => by
      obtain ⟨h, known, _, hr⟩ := a.inBuffer_of_queuedBuffer x hx
      exact ⟨h, known, trivial, hr⟩

/-- SUBMIT leaves every request its buffer. -/
theorem State.queued_inBuffer (x : Word) (hx : (s.queued i h).inBuffer (fun _ => True) x) :
    s.inBuffer (fun _ => True) x := by
  obtain ⟨k, known, _, hr⟩ := hx
  rw [State.queued_hasReq] at known
  have operands : ((s.queued i h).req k).buf = (s.req k).buf ∧ ((s.queued i h).req k).len = (s.req k).len := by
    by_cases hk : k = h
    · subst hk
      rw [State.queued_req_same known]
      exact ⟨rfl, rfl⟩
    · rw [State.queued_req_other k hk]
      exact ⟨rfl, rfl⟩
  rw [operands.1, operands.2] at hr
  exact ⟨k, known, trivial, hr⟩

/-- Settles O57: a step stores inside the buffers of all requests, which SUBMIT leaves as they are, and without a command
inside those of queued requests, which are the engine's. -/
theorem onlyRequestBuffersAreWritten : Obligations.OnlyRequestBuffersAreWritten := by
  intro s t a e noPoke
  have pokes : ¬∃ p bytes rest, s.input = .poke p bytes :: rest := fun ⟨p, bytes, rest, hi⟩ => noPoke p bytes rest hi
  refine ⟨(storeRule_inBuffer.step (.inl ⟨fun _ _ _ _ _ => State.queued_inBuffer, fun poke => absurd poke pokes⟩) a e).outside,
    fun quiet x hx => ?_⟩
  have allows : StoreRule.Allows State.queuedBuffer s ∨ ∃ rest below, s.stack = .dispatch rest :: below :=
    quiet.imp (fun noCmd => ⟨fun ⟨bytes, rest, hi⟩ => absurd hi (noCmd bytes rest), fun poke => absurd poke pokes⟩) id
  exact (storeRule_queuedBuffer.step allows a e).outside x fun hq => hx (a.inBuffer_of_queuedBuffer x hq)

end Sys2Proof.Machine
end

section
/-! SUPPORT. An accepted SUBMIT (O12): it queues the request, which only its endpoint and that request notice, and starts an
`Idle` endpoint's queue. -/

namespace Sys2Proof.Machine

variable {s t u : State} {i : EpIx} {h : Ref} {more : List Ref}

/-- An accepted SUBMIT queues its request, starts an `Idle` endpoint's queue, and answers `Ok` (R130). -/
theorem exec_submit_of_accepts (ha : s.accepts i h) : exec (.submit i h) s = .next
    ((if (s.ep i).state = .idle then (s.queued i h).startTransfer i else s.queued i h).answer .ok) := by
  have okEp : ¬(s.validEp i = false ∨ (s.ep i).reserved = false) := by rw [ha.valid, ha.reserved]; decide
  have okReq : ¬badOperands s h := by
    rintro (e | e | e | ⟨e, e'⟩)
    · exact ha.notNull e
    · exact Bool.noConfusion (e.symm.trans ha.exists_)
    · exact ha.callback e
    · exact e' (ha.buffer e)
  have driver : ¬s.engineOwns h = true := by rw [ha.owner]; decide
  rw [exec_submit, execSubmit, if_neg (mt (s.refused_iff i).mp okEp)]
  exact (if_neg okReq).trans ((if_neg driver).trans (if_neg (not_or.mpr ⟨ha.bound, ha.enabled⟩)))

/-- Queueing a request is noticed by its endpoint and the request alone. -/
theorem State.queued_frame (s : State) (i : EpIx) (h : Ref) : EpFrame i ((s.ep i).queue ++ [h]) s (s.queued i h) := by
  have submit : EpFrame i ((s.ep i).queue ++ [h]) s (s.modReq h submitted) :=
    EpFrame.modReq (.refl fun _ => List.mem_append_left _) h (by simp) submitted fun _ => ⟨rfl, rfl, rfl, rfl⟩
  have ep : (s.queued i h).ep i = { s.ep i with queue := (s.ep i).queue ++ [h] } := by
    rw [State.queued, State.enqueue_ep, if_pos rfl, State.modReq_ep]
  exact { submit with
    other := fun j hj => State.queued_ep_other j hj
    reserved := by rw [ep]
    queue := fun k hk => by rwa [ep] at hk }

/-- Settles O12: the request is queued, and on an `Idle` endpoint the queue is started. -/
theorem submitAcceptedAnswersOk : Obligations.SubmitAcceptedAnswersOk := by
  intro i h s ha q
  have ep : q.ep i = { s.ep i with queue := (s.ep i).queue ++ [h] } := by
    rw [State.enqueue_ep, if_pos rfl, State.modReq_ep]
  refine ⟨_, exec_submit_of_accepts ha, rfl, fun idle => ?_, fun busy => ?_⟩
  · rw [if_pos idle]
    have started := (s.queued_frame i h).startTransfer
    have kept : (s.ep i).Kept (q.ep i) := by
      rw [ep]
      exact ⟨rfl, rfl, rfl, rfl, rfl, rfl, rfl, rfl, rfl, rfl, rfl, rfl, rfl⟩
    exact ⟨rfl, { started with }, State.startTransfer_kept kept, State.startTransfer_settled q (by rw [ep]; exact idle),
      State.startTransfer_memory q i⟩
  · rw [if_neg busy]
    exact ⟨rfl, ep, fun j hj => State.queued_ep_other j hj, State.queued_req_same (i := i) ha.exists_,
      fun k hk => State.queued_req_other (i := i) k hk⟩

end Sys2Proof.Machine
end

section
/-! SUPPORT. Starting a DMA endpoint's queue (O15): a slice is programmed (`Sliced`), a zero-length write sends its packet
(`ZeroPacket`), and a zero-length read completes. -/

namespace Sys2Proof.Machine

variable {s t u : State} {i : EpIx} {h : Ref} {more : List Ref}

/-! ### Programming a slice -/

/-- The number of bytes of the next slice of request `q` (R203). -/
def State.sliceLen (s : State) (q : Request) : Len := lenMin (q.len - q.xfrd) s.cfg.dmaFifoCap

/-- An endpoint whose channel moves `n` bytes at `a` (R203). -/
def Endpoint.sliced (e : Endpoint) (a : Word) (n : Len) : Endpoint :=
  { e with dmaBusy := true, chan := { e.chan with addr := a, count := n, en := true, ie := true, running := true } }

/-- `t` is `s` with the next slice of request `h` programmed on endpoint `i`, the cache flushed over it if it sends. -/
structure Sliced (i : EpIx) (h : Ref) (s t : State) : Prop where
  rest : t = { s with
    eps := t.eps, reqs := t.reqs
    log := s.log ++
      if s.isIn i then [.cacheFlush (bufAt (s.req h).buf (s.req h).xfrd) (s.sliceLen (s.req h))] else [] }
  ep : t.ep i = (s.ep i).sliced (bufAt (s.req h).buf (s.req h).xfrd) (s.sliceLen (s.req h))
  other : ∀ j, j ≠ i → t.ep j = s.ep j
  req : t.req h = { s.req h with inflight := s.sliceLen (s.req h), started := true }
  requests : ∀ k, k ≠ h → t.req k = s.req k

/-- Programming the next slice of the head request (R203). -/
theorem State.dmaSlice_sliced (hp : s.peek i = some h) (hr : s.hasReq h = true) : Sliced i h s (s.dmaSlice i) := by
  have flush : ∀ e, (if s.isIn i then s.emit e else s) = { s with log := s.log ++ if s.isIn i then [e] else [] } := by
    intro e
    split
    · rfl
    · simp
  have programmed : s.dmaSlice i = ({ s with
      log := s.log ++ if s.isIn i then [.cacheFlush (bufAt (s.req h).buf (s.req h).xfrd) (s.sliceLen (s.req h))]
        else [] } : State).programSlice i h (s.sliceLen (s.req h)) (bufAt (s.req h).buf (s.req h).xfrd) := by
    rw [← flush]
    unfold State.dmaSlice
    rw [hp]
    rfl
  rw [programmed]
  exact ⟨rfl, State.modEp_ep_same _ i _, fun j hj => State.modEp_ep_other _ i j _ hj,
    State.modReq_req_same _ h (fun q => { q with inflight := s.sliceLen (s.req h), started := true }) hr,
    fun k hk => State.modReq_req_other _ h k (fun q => { q with inflight := s.sliceLen (s.req h), started := true }) hk⟩

/-! ### The zero-length packet of a write -/

/-- An endpoint that has handed a zero-length packet over and watches for its end (R200). -/
def Endpoint.sentZlp (e : Endpoint) : Endpoint :=
  { e with
    state := .sending
    bank := (e.bank + 1) % e.banks
    ctl := { e.ctl with txpktrdy := true, txdoneIe := true }
    fifo := { e.fifo with fill := [], tx := e.fifo.tx ++ [e.fifo.fill] } }

/-- `t` is `s` with the zero-length packet of request `h` sent on endpoint `i`. -/
structure ZeroPacket (i : EpIx) (h : Ref) (s t : State) : Prop where
  rest : t = { s with eps := t.eps, reqs := t.reqs }
  ep : t.ep i = (s.ep i).sentZlp
  other : ∀ j, j ≠ i → t.ep j = s.ep j
  req : t.req h = { s.req h with inflight := 0, started := true }
  requests : ∀ k, k ≠ h → t.req k = s.req k

theorem State.dmaZlp_zeroPacket (hr : s.hasReq h = true) : ZeroPacket i h s (s.dmaZlp i h) where
  rest := rfl
  ep := by unfold State.dmaZlp Endpoint.sentZlp; simp [Fifo.hand]
  other j hj := by unfold State.dmaZlp; simp [hj]
  req := State.modReq_req_same (s.fifoWrite i []) h (fun q => { q with inflight := 0, started := true }) hr
  requests k hk := State.modReq_req_other (s.fifoWrite i []) h k (fun q => { q with inflight := 0, started := true }) hk

/-! ### Starting the queue -/

/-- Requests wait at a DMA endpoint (R176, R200). -/
structure State.streams (s : State) (i : EpIx) : Prop where
  idle : (s.ep i).state = .idle
  dma : s.hasDma i = true

theorem State.streams.startTransfer (r : s.streams i) :
    s.startTransfer i = dmaStartLoop i ((s.ep i).queue.length + 1) s := by
  unfold State.startTransfer State.dmaStart
  rw [if_neg (not_not.mpr r.idle), r.dma]
  cases hq : (s.ep i).queue with
  | nil =>
    have none : s.peek i = none := by rw [State.peek_eq, hq]; rfl
    show s = dmaStartLoop i 1 s
    unfold dmaStartLoop
    rw [none]
  | cons h rest => rfl

section
variable (r : s.streams i) (hq : (s.ep i).queue = h :: more)
include r hq

/-- A request with bytes to move has its first slice programmed (R200). -/
theorem State.streams.startTransfer_slice (hl : (s.req h).len ≠ 0) :
    s.startTransfer i = (s.setEpState i (if s.isIn i then .sending else .receiving)).dmaSlice i := by
  have head : s.peek i = some h := by rw [State.peek_eq, hq]; rfl
  rw [r.startTransfer, dmaStartLoop]
  rw [head]
  exact if_neg hl

/-- A zero-length write sends its packet (R200). -/
theorem State.streams.startTransfer_zlp (hl : (s.req h).len = 0) (hi : s.isIn i = true) :
    s.startTransfer i = s.dmaZlp i h := by
  have head : s.peek i = some h := by rw [State.peek_eq, hq]; rfl
  rw [r.startTransfer, dmaStartLoop]
  rw [head]
  exact (if_pos hl).trans (if_pos hi)

/-- A zero-length read completes, and the next request starts (R200). -/
theorem State.streams.startTransfer_empty (hl : (s.req h).len = 0) (hi : s.isIn i = false) :
    s.startTransfer i = (s.complete i .ok).startTransfer i := by
  have head : s.peek i = some h := by rw [State.peek_eq, hq]; rfl
  have idle : ((s.complete i .ok).ep i).state = .idle := by rw [State.complete_ep_same]; exact r.idle
  have done : (s.complete i .ok).streams i := ⟨idle, (State.hasDma_congr (State.complete_cfg s i .ok) i).trans r.dma⟩
  have queue : ((s.complete i .ok).ep i).queue = more := by rw [State.complete_ep_same, hq]; rfl
  rw [r.startTransfer, done.startTransfer, queue, hq, List.length_cons, dmaStartLoop]
  rw [head, State.setEpState_self idle]
  exact (if_pos hl).trans (if_neg (by rw [hi]; decide))

end

/-- The first slice of the head request, from the state in which it waits. -/
structure FirstSlice (i : EpIx) (h : Ref) (s t : State) : Prop where
  rest : t = { s with
    eps := t.eps, reqs := t.reqs
    log := s.log ++ if s.isIn i then [.cacheFlush (s.req h).buf (lenMin (s.req h).len s.cfg.dmaFifoCap)] else [] }
  ep : t.ep i = ({ s.ep i with state := if s.isIn i then .sending else .receiving } : Endpoint).sliced (s.req h).buf
    (lenMin (s.req h).len s.cfg.dmaFifoCap)
  other : ∀ j, j ≠ i → t.ep j = s.ep j
  req : t.req h = { s.req h with inflight := lenMin (s.req h).len s.cfg.dmaFifoCap, started := true }
  requests : ∀ k, k ≠ h → t.req k = s.req k

/-- A request none of whose bytes are counted starts with its first slice (R200, R203). -/
theorem State.streams.firstSlice (r : s.streams i) (hq : (s.ep i).queue = h :: more) (hr : s.hasReq h = true)
    (hl : (s.req h).len ≠ 0) (hx : (s.req h).xfrd = 0) : FirstSlice i h s (s.startTransfer i) := by
  rw [r.startTransfer_slice hq hl]
  generalize hv : s.setEpState i (if s.isIn i then .sending else .receiving) = v
  have ep : v.ep i = { s.ep i with state := if s.isIn i then .sending else .receiving } := by
    rw [← hv, State.setEpState_ep, if_pos rfl]
  have req : ∀ k, v.req k = s.req k := fun k => by rw [← hv]; rfl
  have head : v.peek i = some h := by
    rw [State.peek_eq, ep]
    exact congrArg List.head? hq
  have start : bufAt (v.req h).buf (v.req h).xfrd = (s.req h).buf := by rw [req, hx]; simp [bufAt]
  have count : v.sliceLen (v.req h) = lenMin (s.req h).len s.cfg.dmaFifoCap := by
    rw [State.sliceLen, req, hx, len_sub_zero, ← hv]
    rfl
  have dir : v.isIn i = s.isIn i := by
    unfold State.isIn
    rw [ep]
  obtain ⟨rest, slice, other, counts, requests⟩ :=
    State.dmaSlice_sliced head (show v.hasReq h = true by rw [← hv]; exact hr)
  rw [start, count] at slice
  rw [start, count, dir] at rest
  rw [count, req] at counts
  refine ⟨rest.trans ?_, slice.trans (by rw [ep]), fun j hj => (other j hj).trans ?_, counts,
    fun k hk => (requests k hk).trans (req k)⟩
  · rw [← hv]
    rfl
  · rw [← hv, State.setEpState_ep, if_neg hj]

/-! ### SUBMIT (O15) -/

theorem State.queued_streams (r : s.streams i) (empty : (s.ep i).queue = []) : (s.queued i h).streams i :=
  ⟨by rw [State.queued_ep_same empty]; exact r.idle, r.dma⟩

theorem State.queued_isIn (empty : (s.ep i).queue = []) : (s.queued i h).isIn i = s.isIn i := by
  unfold State.isIn
  rw [State.queued_ep_same empty]

/-- Settles O15: both parts are the three ways a fresh request can start, the first part from the state in which the
request has been queued. -/
theorem submitStartsADmaSlice : Obligations.SubmitStartsADmaSlice := by
  intro i h s idle dma q e n others slice zlp flushed
  have r : s.streams i := ⟨idle, dma⟩
  refine ⟨fun ha empty => ?_, fun more hq hr hx => ⟨fun hl => ?_, fun hl out => ?_, fun hl out => ?_⟩⟩
  · have ep := State.queued_ep_same (h := h) empty
    have queue : ((s.queued i h).ep i).queue = h :: [] := by rw [ep]
    have hr : (s.queued i h).hasReq h = true := (State.queued_hasReq h).trans ha.exists_
    have req : (s.queued i h).req h = submitted (s.req h) := State.queued_req_same ha.exists_
    have dir : (s.queued i h).isIn i = s.isIn i := State.queued_isIn empty
    have streams : (s.queued i h).streams i := State.queued_streams r empty
    have F := (EpFrame.start i (s.queued i h)).startTransfer
    rw [ep] at F
    refine ⟨_, exec_submit_of_idle ha idle, ⟨fun j hj => ?_, fun k hk => ?_⟩, fun hl => ?_, fun hl out => ?_,
      fun hl out => ?_⟩
    · exact (F.other j hj).trans (State.queued_ep_other j hj)
    · exact (F.requests k (by simpa using hk)).trans (State.queued_req_other k hk)
    · obtain ⟨rest, sliced, -, counts, -⟩ := streams.firstSlice queue hr (by rw [req]; exact hl) (by rw [req]; rfl)
      rw [req, dir] at rest sliced
      rw [req] at counts
      exact ⟨congrArg (State.answer · .ok) rest, sliced.trans (by rw [ep]; rfl), counts⟩
    · have Z := State.dmaZlp_zeroPacket (i := i) hr
      have started := streams.startTransfer_zlp queue (by rw [req]; exact hl) (dir.trans out)
      rw [State.queued] at started
      rw [started]
      exact ⟨congrArg (State.answer · .ok) Z.rest, Z.ep.trans (by rw [ep]; rfl), Z.req.trans (by rw [req]; rfl)⟩
    · obtain ⟨rest, head, -, done, -⟩ := State.complete_head queue hr
      have started : (s.queued i h).startTransfer i = (s.queued i h).complete i .ok :=
        (streams.startTransfer_empty queue (by rw [req]; exact hl) (dir.trans out)).trans
          (State.startTransfer_nil (by rw [head]))
      rw [State.queued] at started
      rw [started]
      exact ⟨congrArg (State.answer · .ok) rest, head.trans (by rw [ep, ← empty]), done.trans (by rw [req])⟩
  · obtain ⟨rest, sliced, other, counts, requests⟩ := r.firstSlice hq hr hl hx
    exact ⟨rest, ⟨other, requests⟩, sliced.trans (by rw [← hq]; rfl), counts⟩
  · rw [r.startTransfer_zlp hq hl out]
    have Z := State.dmaZlp_zeroPacket (i := i) hr
    exact ⟨Z.rest, ⟨Z.other, Z.requests⟩, Z.ep.trans (by rw [← hq]; rfl), Z.req⟩
  · obtain ⟨rest, head, other, done, requests⟩ := State.complete_head hq hr
    exact ⟨_, r.startTransfer_empty hq hl out, ⟨other, requests⟩, rest, head, done⟩

end Sys2Proof.Machine
end

section
/-! SUPPORT. One step of the machine by who acts (R7, R71): a pending callback, the dispatcher, the environment. A decoded
record is executed (O5), and the dispatcher runs the sources still pending of its sample (O7). -/

namespace Sys2Proof.Machine

variable {s : State} {rest : List Input} {bytes more : List Byte} {ins : Instr} {sources : List Source} {below : List Ctx}

/-! ### Who acts -/

/-- No engine code stands between two of its steps: the environment acts. -/
theorem step_of_idle (hs : s.stack = [] ∨ ∃ c below, s.stack = .active c :: below) : step s = environmentStep s := by
  unfold step machineStep
  rcases hs with hs | ⟨c, below, hs⟩ <;> rw [hs]

/-- Inside a pass the dispatcher acts, unless a stimulus arrives at this moment. -/
theorem step_of_dispatch (hs : s.stack = .dispatch sources :: below)
    (quiet : ∀ bytes more, s.input ≠ .stim true bytes :: more) : step s = .next (s.dispatchStep sources below).release := by
  unfold step machineStep
  rw [hs]
  dsimp only
  split
  · next hi => exact absurd hi (quiet _ _)
  · rfl

/-- Inside a pass a stimulus arrives at this moment (R301). -/
theorem step_of_arrival (hs : s.stack = .dispatch sources :: below) (hi : s.input = .stim true bytes :: rest) :
    step s = runRecord .stimulus bytes rest s := by
  unfold step machineStep
  rw [hs]
  dsimp only
  split
  · next hi' =>
    rw [hi] at hi'
    cases hi'
    rfl
  · next other => exact absurd hi (other _ _)

theorem runRecord_of_decode {port : Port} (hd : decode port bytes = .ok (ins, more)) :
    runRecord port bytes rest s = releaseOutcome (exec ins { s with input := rest }) := by
  unfold runRecord
  rw [hd]

/-! ### Records (O5) -/

/-- Settles O5: the record's port decodes it at each of the three places. -/
theorem stepRunsDecodedRecord : Obligations.StepRunsDecodedRecord := by
  intro s i bytes more now rest idle
  refine ⟨fun hs hi hd => ?_, fun hs hi hd => ?_, fun later below hs hi hd => ?_⟩
  · rw [step_of_idle hs, environmentStep, hi]
    exact runRecord_of_decode hd
  · rw [step_of_idle hs, environmentStep, hi]
    exact runRecord_of_decode hd
  · rw [step_of_arrival hs hi]
    exact runRecord_of_decode hd

/-! ### The dispatcher (O7) -/

theorem State.sample_eq_nil_iff (s : State) : s.sample = [] ↔ ∀ x, s.stillPending x = false := by
  rw [State.sample, List.filter_eq_nil_iff]
  exact ⟨fun none x => by simpa using none x (mem_allSources x), fun none x _ => by simp [none x]⟩

theorem State.sample_ne_nil {x : Source} (hx : s.stillPending x = true) : s.sample ≠ [] := fun e =>
  Bool.noConfusion (hx.symm.trans ((s.sample_eq_nil_iff).mp e x))

/-- The handler of the first source still pending runs. -/
theorem State.dispatchStep_of_pending {pre later : List Source} {b : Source}
    (skipped : ∀ x, x ∈ pre → s.stillPending x = false) (pending : s.stillPending b = true) :
    s.dispatchStep (pre ++ b :: later) below = { s with stack := .dispatch later :: below }.handle b := by
  have first : (pre ++ b :: later).dropWhile (fun x => !s.stillPending x) = b :: later := by
    rw [List.dropWhile_append_of_pos fun x hx => by simp [skipped x hx], List.dropWhile_cons_of_neg (by simp [pending])]
  unfold State.dispatchStep
  rw [first]

/-- With no source of the pass pending the dispatcher re-samples. -/
theorem State.dispatchStep_of_none (none : ∀ x, x ∈ sources → s.stillPending x = false) :
    s.dispatchStep sources below = s.resample below := by
  have skipped : sources.dropWhile (fun x => !s.stillPending x) = [] :=
    List.dropWhile_eq_nil_iff.mpr fun x hx => by simp [none x hx]
  unfold State.dispatchStep
  rw [skipped]

theorem State.inDispatch_iff (s : State) : s.inDispatch = true ↔ ∃ r, .dispatch r ∈ s.stack := by
  unfold State.inDispatch
  rw [List.any_eq_true]
  constructor
  · rintro ⟨c, hc, running⟩
    cases c with
    | dispatch r => exact ⟨r, hc⟩
    | pending _ => cases running
    | active _ => cases running
  · rintro ⟨r, hr⟩
    exact ⟨.dispatch r, hr, rfl⟩

/-- Settles O7: by who acts, and by what is pending. -/
theorem dispatcherRunsStillPendingSources : Obligations.DispatcherRunsStillPendingSources := by
  intro s c rest below
  refine ⟨fun hs => ?_, fun hs quiet => ⟨fun pre b later split skipped pending => ?_, fun none => ⟨fun idle => ?_,
    fun ⟨x, hx⟩ => ?_⟩⟩, fun hs later hi => ?_⟩
  · unfold step machineStep
    rw [hs]
    rfl
  · rw [step_of_dispatch hs quiet, split, State.dispatchStep_of_pending skipped pending]
  · rw [step_of_dispatch hs quiet, State.dispatchStep_of_none none, State.resample, (s.sample_eq_nil_iff).mpr idle]
    rfl
  · rw [step_of_dispatch hs quiet, State.dispatchStep_of_none none, State.resample,
      if_neg (by simpa using State.sample_ne_nil hx)]
    rfl
  · have entered : step s = .next { s with input := later }.enterDispatch := by
      rw [step_of_idle hs, environmentStep]
      rcases hi with hi | ⟨hi, rfl⟩
      · rw [hi]
      · rw [hi]
        exact congrArg (fun l => Host.Outcome.next { s with input := l }.enterDispatch) hi
    have sample : ({ s with input := later } : State).sample = s.sample :=
      congrArg (allSources.filter ·) (funext fun x => by cases x <;> rfl)
    have running : ({ s with input := later } : State).inDispatch = s.inDispatch := rfl
    rw [entered, State.enterDispatch, sample, running]
    refine ⟨fun outside ⟨x, hx⟩ => ?_, fun stays => ?_⟩
    · have free : s.inDispatch = false := by
        rw [← Bool.not_eq_true, State.inDispatch_iff]
        exact fun ⟨r, hr⟩ => outside r hr
      rw [if_neg (by simp [free, State.sample_ne_nil hx])]
    · rw [if_pos]
      rw [Bool.or_eq_true, State.inDispatch_iff, List.isEmpty_iff, State.sample_eq_nil_iff]
      exact stays

end Sys2Proof.Machine
end

section
/-! SUPPORT. What the handlers of a packet do to the head request: the end of a transfer said once (`Ended`), the next packet of
a write (O44), and the packet of a read (O45). -/

namespace Sys2Proof.Machine

variable {s t u : State} {i : EpIx} {h : Ref} {more : List Ref} {r : Result}

/-! ### The end of a transfer -/

/-- The head request is completed with `r` and the endpoint is `Idle` (R171). -/
def State.endHead (s : State) (i : EpIx) (r : Result) : State := (s.complete i r).setEpState i .idle

/-- `u` is `s` with the head request `h` of endpoint `i` completed with `r`; `more` stays queued. -/
structure Ended (i : EpIx) (h : Ref) (r : Result) (more : List Ref) (s u : State) : Prop where
  rest : u = { s with eps := u.eps, reqs := u.reqs, cbList := s.cbList ++ [.done i h r] }
  ep : u.ep i = { s.ep i with state := .idle, queue := more }
  other : ∀ j, j ≠ i → u.ep j = s.ep j
  req : u.req h = completed r (s.req h)
  requests : ∀ k, k ≠ h → u.req k = s.req k

theorem State.endHead_ended (hq : (s.ep i).queue = h :: more) (hr : s.hasReq h = true) :
    Ended i h r more s (s.endHead i r) := by
  have done := State.complete_cons s i r hq
  refine ⟨?_, ?_, fun j hj => ?_, ?_, fun k hk => ?_⟩
  · rw [State.endHead, done]
    rfl
  · rw [State.endHead, State.setEpState_ep, if_pos rfl, State.complete_ep_same, hq]
    rfl
  · rw [State.endHead, State.setEpState_ep, if_neg hj, State.complete_ep_other _ _ _ _ hj]
  · rw [State.endHead, State.setEpState_req, done, State.callback_req]
    exact State.modReq_req_same _ h _ hr
  · rw [State.endHead, State.setEpState_req, done, State.callback_req, State.modReq_req_other _ h k _ hk]
    rfl

theorem Ended.settled (E : Ended i h r more s u) : ((u.startTransfer i).ep i).settled :=
  State.startTransfer_settled u (by rw [E.ep])

theorem Ended.mem (E : Ended i h r more s u) : u.mem = s.mem := (congrArg State.mem E.rest :)

theorem Ended.draws (E : Ended i h r more s u) : u.draws = s.draws := (congrArg State.draws E.rest :)

/-- With nothing queued behind it the endpoint stays `Idle`. -/
theorem Ended.startTransfer_nil (E : Ended i h r [] s u) : u.startTransfer i = u := State.startTransfer_nil (by rw [E.ep])

/-! ### The next packet of a write -/

/-- An endpoint after the next packet of write `q` has been carved from memory `m` and handed over (R180 to R182). -/
def Endpoint.afterPacket (e : Endpoint) (m : Memory) (q : Request) : Endpoint :=
  let n := lenMin e.mps (q.len - q.xfrd)
  { e with
    state := .sending
    txnullpkt := decide (q.len - q.xfrd - n = 0) && q.nullpkt && decide (n = e.mps)
    bank := (e.bank + 1) % e.banks
    ctl := { e.ctl with txpktrdy := true }
    fifo := { e.fifo with
      fill := []
      tx := e.fifo.tx ++ [e.fifo.fill ++ readBytes m (bufAt q.buf q.xfrd) n.toNat] } }

theorem Endpoint.afterPacket_of_sending {e : Endpoint} {m : Memory} {q : Request} (hs : e.state = .sending) :
    let n := lenMin e.mps (q.len - q.xfrd)
    e.afterPacket m q = { e with
      txnullpkt := decide (n = q.len - q.xfrd) && q.nullpkt && decide (n = e.mps)
      bank := (e.bank + 1) % e.banks
      ctl := { e.ctl with txpktrdy := true }
      fifo := { e.fifo with
        fill := []
        tx := e.fifo.tx ++ [e.fifo.fill ++ readBytes m (bufAt q.buf q.xfrd) n.toNat] } } := by
  intro n
  have last : (q.len - q.xfrd - n = 0) ↔ n = q.len - q.xfrd := by constructor <;> intro e <;> bv_omega
  unfold Endpoint.afterPacket
  rw [← decide_eq_decide.mpr last, ← hs]

/-- Handing a packet over is one update of the endpoint and one of the request. -/
theorem State.sendPacket_eq (s : State) (i : EpIx) (h : Ref) :
    s.sendPacket i h = (s.modEp i fun e => e.afterPacket s.mem (s.req h)).modReq h
      fun q => { q with inflight := lenMin (s.ep i).mps ((s.req h).len - (s.req h).xfrd), started := true } := by
  refine State.eq_of_ep rfl fun j => ?_
  rw [State.modReq_ep]
  unfold State.sendPacket Endpoint.afterPacket
  by_cases hj : j = i
  · subst hj; simp [State.memRead, Fifo.hand]
  · simp [hj]

/-- The state before does not matter to `sendPacket`, which writes it. -/
theorem State.sendPacket_setEpState (x : EpState) : (s.setEpState i x).sendPacket i h = s.sendPacket i h := by
  have once : (s.setEpState i x).modEp i (fun e => e.afterPacket s.mem (s.req h)) =
      s.modEp i fun e => e.afterPacket s.mem (s.req h) := State.modEp_modEp s i _ _
  have mps : ((s.setEpState i x).ep i).mps = (s.ep i).mps := by rw [State.setEpState_ep, if_pos rfl]
  rw [State.sendPacket_eq, State.sendPacket_eq, mps, ← once]
  rfl

/-- An update of the endpoint that reads and writes no state of it commutes with setting that state. -/
theorem State.setEpState_modEp (f : Endpoint → Endpoint) (x : EpState)
    (apart : ∀ e : Endpoint, f { e with state := x } = { f e with state := x }) :
    (s.setEpState i x).modEp i f = (s.modEp i f).setEpState i x := by
  refine State.eq_of_ep rfl fun j => ?_
  by_cases hj : j = i
  · subst hj; simp [State.setEpState, apart]
  · simp [State.setEpState, hj]

theorem State.complete_setEpState (x : EpState) : (s.setEpState i x).complete i r = (s.complete i r).setEpState i x := by
  have queue : ((s.setEpState i x).ep i).queue = (s.ep i).queue := by rw [State.setEpState_ep, if_pos rfl]
  cases hq : (s.ep i).queue with
  | nil => rw [State.complete_nil s i r hq, State.complete_nil _ i r (queue.trans hq)]
  | cons k rest =>
    rw [State.complete_cons s i r hq, State.complete_cons _ i r (queue.trans hq)]
    rw [State.setEpState_modEp (fun e => { e with queue := rest }) x fun _ => rfl]
    rfl

theorem State.oweZlp_setEpState (x : EpState) : (s.setEpState i x).oweZlp i h = (s.oweZlp i h).setEpState i x := by
  unfold State.oweZlp
  rw [State.setEpState_req]
  split
  · exact State.setEpState_modEp _ x fun _ => rfl
  · rfl

/-- Nor does it matter to `WriteProcess`, which ends `Sending` or `Idle` (R181). -/
theorem writeLoop_setEpState (k : Nat) (x : EpState) {s : State} (hk : (s.ep i).queue.length < k) :
    writeLoop i k (s.setEpState i x) = writeLoop i k s := by
  induction k generalizing s with
  | zero => omega
  | succ k ih =>
    have peek : (s.setEpState i x).peek i = s.peek i := State.modEp_peek rfl
    unfold writeLoop
    rw [peek]
    cases hp : s.peek i with
    | none => exact State.modEp_modEp s i _ _
    | some h =>
      dsimp only
      have owed : ((s.setEpState i x).countSent h).oweZlp i h = ((s.countSent h).oweZlp i h).setEpState i x :=
        State.oweZlp_setEpState (s := s.countSent h) x
      have null : ((((s.countSent h).oweZlp i h).setEpState i x).ep i).txnullpkt =
          (((s.countSent h).oweZlp i h).ep i).txnullpkt := by rw [State.setEpState_ep, if_pos rfl]
      rw [owed, null, State.setEpState_req, State.sendPacket_setEpState, State.complete_setEpState]
      have length := State.complete_queue_length ((State.peek_of_queue (State.oweZlp_queue (s.countSent h) h)).trans hp) .ok
      rw [State.oweZlp_queue] at length
      rw [ih (s := ((s.countSent h).oweZlp i h).complete i .ok) (by
        have : (s.ep i).queue.length = ((s.countSent h).ep i).queue.length := rfl
        omega)]

/-! ### TX-done -/

theorem State.countSent_req_same (hr : s.hasReq h = true) :
    (s.countSent h).req h = { s.req h with xfrd := (s.req h).xfrd + (s.req h).inflight, inflight := 0 } :=
  State.modReq_req_same s h _ hr

theorem State.countSent_req_other {k : Ref} (hk : k ≠ h) : (s.countSent h).req k = s.req k :=
  State.modReq_req_other s h k _ hk

/-- One turn of `WriteProcess` for a write already started: the packet in flight is counted, and the next one sent or the
write completed (R181). -/
theorem writeLoop_of_started (k : Nat) (hq : (s.ep i).queue = h :: more) (hr : s.hasReq h = true)
    (hs : (s.req h).started = true) : writeLoop i (k + 1) s =
      if (s.req h).xfrd + (s.req h).inflight ≠ (s.req h).len ∨ (s.ep i).txnullpkt = true
      then (s.countSent h).sendPacket i h else writeLoop i k ((s.countSent h).complete i .ok) := by
  have peek : s.peek i = some h := by rw [State.peek_eq, hq]; rfl
  have counted := State.countSent_req_same hr
  have owed : (s.countSent h).oweZlp i h = s.countSent h := by
    unfold State.oweZlp
    rw [counted, hs]
    rfl
  have left : (s.req h).len - ((s.req h).xfrd + (s.req h).inflight) ≠ 0 ↔
      (s.req h).xfrd + (s.req h).inflight ≠ (s.req h).len := not_congr (by constructor <;> intro e <;> bv_omega)
  have flag : ((s.countSent h).ep i).txnullpkt = (s.ep i).txnullpkt := rfl
  conv_lhs => unfold writeLoop
  rw [peek]
  dsimp only
  rw [owed, counted, flag]
  exact if_congr (or_congr_left left) rfl rfl

/-- `WriteProcess` starts what is queued, whatever the state was before (R176, R181). -/
theorem State.startTransfer_setEpState_idle (hd : s.hasDma i = false) (hi : (s.ep i).queue = [] ∨ s.isIn i = true) :
    (s.setEpState i .idle).startTransfer i = s.writeProcess i := by
  have queue : ((s.setEpState i .idle).ep i).queue = (s.ep i).queue := by rw [State.setEpState_ep, if_pos rfl]
  cases hq : (s.ep i).queue with
  | nil =>
    have none : s.peek i = none := by rw [State.peek_eq, hq]; rfl
    rw [State.startTransfer_nil (queue.trans hq), State.writeProcess]
    unfold writeLoop
    rw [none]
  | cons h more =>
    have isIn : (s.setEpState i .idle).isIn i = true := by
      simpa [State.isIn] using hi.resolve_left (by rw [hq]; nofun)
    have noDma : (s.setEpState i .idle).hasDma i = false := hd
    unfold State.startTransfer
    rw [queue, if_neg (by rw [hq]; nofun), if_neg (by rw [noDma]; nofun), if_pos isIn,
      State.writeProcess, State.writeProcess, queue, writeLoop_setEpState _ _ (Nat.lt_succ_self _)]

/-- `t` is `s` with the head request `h` of endpoint `i` completed with `Ok` and the queue started again: `e` and `q` are the
endpoint and the request but for that. -/
def Completes (i : EpIx) (h : Ref) (more : List Ref) (s : State) (e : Endpoint) (q : Request) (t : State) : Prop :=
  ∃ u, u = { s with eps := u.eps, reqs := u.reqs, cbList := s.cbList ++ [.done i h .ok] } ∧
    ((∀ j, j ≠ i → u.ep j = s.ep j) ∧ ∀ k, k ≠ h → u.req k = s.req k) ∧
    u.ep i = { e with state := .idle, queue := more } ∧ u.req h = completed .ok q ∧ t = u.startTransfer i ∧
    (more = [] → t = u) ∧ EpFrame i (h :: more) s t ∧ (t.ep i).settled

/-- TX-done completes the head of the queue once the packet is counted or `TXDONE` masked (`v`). -/
theorem Ended.completes {v : State} (E : Ended i h .ok more v u) (rest : v = { s with eps := v.eps, reqs := v.reqs })
    (other : ∀ j, j ≠ i → v.ep j = s.ep j) (requests : ∀ k, k ≠ h → v.req k = s.req k)
    (F : EpFrame i (h :: more) s (u.startTransfer i)) : Completes i h more s (v.ep i) (v.req h) (u.startTransfer i) := by
  refine ⟨u, ?_, ⟨fun j hj => (E.other j hj).trans (other j hj), fun k hk => (E.requests k hk).trans (requests k hk)⟩,
    E.ep, E.req, rfl, fun none => ?_, F, E.settled⟩
  · refine E.rest.trans ?_
    rw [rest]
  · subst none
    exact E.startTransfer_nil

/-- TX-done of a write with nothing left to send (R181). -/
theorem State.txDone_completes (hs : (s.ep i).state = .sending) (hq : (s.ep i).queue = h :: more)
    (hr : s.hasReq h = true) (hd : s.hasDma i = false) (started : (s.req h).started = true)
    (sent : (s.req h).xfrd + (s.req h).inflight = (s.req h).len) (null : (s.ep i).txnullpkt = false)
    (sends : more = [] ∨ s.isIn i = true) :
    Completes i h more s (s.ep i) { s.req h with xfrd := (s.req h).xfrd + (s.req h).inflight } (s.txDone i) := by
  have write : s.txDone i = s.writeProcess i := by unfold State.txDone; rw [hs]; simp [hd]
  have E : Ended i h .ok more (s.countSent h) ((s.countSent h).endHead i .ok) :=
    State.endHead_ended hq ((State.modReq_hasReq s h h _).trans hr)
  have length : (((s.countSent h).complete i .ok).ep i).queue = more := by
    rw [State.complete_ep_same]
    exact congrArg List.tail hq
  have turn : s.writeProcess i = ((s.countSent h).complete i .ok).writeProcess i := by
    rw [State.writeProcess, hq, writeLoop_of_started _ hq hr started, if_neg (by simp [sent, null]), State.writeProcess,
      length]
    rfl
  have next : s.txDone i = ((s.countSent h).endHead i .ok).startTransfer i := by
    rw [write, turn]
    refine (State.startTransfer_setEpState_idle ?_ ?_).symm
    · exact (State.hasDma_congr (s := s) (by simp [State.countSent]) i).trans hd
    · rw [length]
      refine sends.imp_right fun isIn => ?_
      unfold State.isIn at isIn ⊢
      rw [State.complete_ep_same]
      exact isIn
  have F : EpFrame i (h :: more) s (s.txDone i) := by
    rw [write, ← hq]
    exact (EpFrame.start i s).writeProcess
  rw [next] at F ⊢
  have C := E.completes rfl (fun _ _ => rfl) (fun k hk => State.countSent_req_other hk) F
  rw [State.countSent_req_same hr] at C
  exact C

/-- TX-done of a write with more to send (R180, R181, R182). -/
theorem State.txDone_sends (hs : (s.ep i).state = .sending) (hq : (s.ep i).queue = h :: more) (hr : s.hasReq h = true)
    (hd : s.hasDma i = false) (started : (s.req h).started = true)
    (owes : (s.req h).xfrd + (s.req h).inflight ≠ (s.req h).len ∨ (s.ep i).txnullpkt = true) :
    let q := { s.req h with xfrd := (s.req h).xfrd + (s.req h).inflight }
    let t := s.txDone i
    t = { s with eps := t.eps, reqs := t.reqs } ∧ ((∀ j, j ≠ i → t.ep j = s.ep j) ∧ ∀ k, k ≠ h → t.req k = s.req k) ∧
    t.ep i = (s.ep i).afterPacket s.mem q ∧
    t.req h = { q with inflight := lenMin (s.ep i).mps (q.len - q.xfrd) } := by
  intro q t
  have write : t = s.writeProcess i := by unfold t State.txDone; rw [hs]; simp [hd]
  have counted := State.countSent_req_same hr
  have packet : t = ((s.countSent h).modEp i fun e => e.afterPacket s.mem ((s.countSent h).req h)).modReq h
      fun q' => { q' with inflight := lenMin (s.ep i).mps (q.len - q.xfrd), started := true } := by
    rw [write, State.writeProcess, hq, writeLoop_of_started _ hq hr started, if_pos owes, State.sendPacket_eq, counted]
    rfl
  refine ⟨by rw [packet]; rfl, ⟨fun j hj => ?_, fun k hk => ?_⟩, ?_, ?_⟩
  · rw [packet, State.modReq_ep, State.modEp_ep_other _ _ _ _ hj]
    rfl
  · rw [packet, State.modReq_req_other _ _ _ _ hk, State.modEp_req, State.countSent_req_other hk]
  · rw [packet, State.modReq_ep, State.modEp_ep_same, counted]
    rfl
  · rw [packet, State.modReq_req_same _ _ _ (by simpa [State.countSent] using hr), State.modEp_req, counted, ← started]

/-- TX-done in `Sending` of a DMA endpoint masks `TXDONE`, and completes a zero-length write (R200, R210). -/
theorem State.txDone_dma (hs : (s.ep i).state = .sending) (hq : (s.ep i).queue = h :: more) (hr : s.hasReq h = true)
    (hd : s.hasDma i = true) :
    ((s.req h).len = 0 → Completes i h more s { s.ep i with ctl := { (s.ep i).ctl with txdoneIe := false } } (s.req h)
      (s.txDone i)) ∧
    ((s.req h).len ≠ 0 → let t := s.txDone i
      t = { s with eps := t.eps } ∧ ((∀ j, j ≠ i → t.ep j = s.ep j) ∧ ∀ k, k ≠ h → t.req k = s.req k) ∧
      t.ep i = { s.ep i with ctl := { (s.ep i).ctl with txdoneIe := false } }) := by
  have peek : s.peek i = some h := by rw [State.peek_eq, hq]; rfl
  have masked : s.txDone i = if (s.req h).len = 0 then (s.modCtl i fun c => { c with txdoneIe := false }).completeAndStart i .ok
      else s.modCtl i fun c => { c with txdoneIe := false } := by
    have kept : (s.modCtl i fun c => { c with txdoneIe := false }).peek i = some h := (State.modEp_peek rfl).trans peek
    unfold State.txDone
    rw [hs]
    dsimp only
    rw [if_pos hd, kept]
    rfl
  have ep := State.modEp_ep_same s i fun e => { e with ctl := { e.ctl with txdoneIe := false } }
  rw [masked]
  refine ⟨fun zero => ?_, fun bytes => ?_⟩
  · rw [if_pos zero]
    have E : Ended i h .ok more (s.modCtl i fun c => { c with txdoneIe := false })
        ((s.modCtl i fun c => { c with txdoneIe := false }).endHead i .ok) :=
      State.endHead_ended ((congrArg Endpoint.queue ep).trans hq) hr
    have F : EpFrame i (h :: more) s ((s.modCtl i fun c => { c with txdoneIe := false }).completeAndStart i .ok) := by
      rw [← hq]
      exact ((EpFrame.start i s).modCtl _).completeAndStart .ok
    have C := E.completes rfl (fun j hj => State.modEp_ep_other s i j _ hj) (fun _ _ => rfl) F
    rwa [State.modCtl, ep] at C
  · rw [if_neg bytes]
    exact ⟨rfl, ⟨fun j hj => State.modEp_ep_other s i j _ hj, fun _ _ => rfl⟩, ep⟩

/-- Settles O44: a write in flight sends its next packet or completes, a DMA endpoint masks `TXDONE`, and the status stage
of EP0 goes on to what is queued. -/
theorem txDoneSendsTheNextPacket : Obligations.TxDoneSendsTheNextPacket := by
  refine ⟨fun i h more s hs hq hr => ?_, fun s hs => ?_⟩
  · have peek : s.peek i = some h := by rw [State.peek_eq, hq]; rfl
    refine ⟨fun hd started _ => ⟨fun owes => ?_, fun sent null sends => ?_⟩, fun hd => ?_⟩
    · obtain ⟨rest, others, ep, req⟩ := State.txDone_sends hs hq hr hd started owes
      exact ⟨rest, others, ep.trans (Endpoint.afterPacket_of_sending hs), req⟩
    · exact State.txDone_completes hs hq hr hd started sent null sends
    · exact State.txDone_dma hs hq hr hd
  · have write : s.txDone 0 = s.writeProcess 0 := by unfold State.txDone; rw [hs]
    have start : (s.setEpState 0 .idle).startTransfer 0 = s.writeProcess 0 :=
      State.startTransfer_setEpState_idle (State.hasDma_zero s) (.inr rfl)
    have idle : ((s.setEpState 0 .idle).ep 0).state = .idle := by rw [State.setEpState_ep, if_pos rfl]
    refine ⟨write.trans start.symm, fun none => ?_, ?_, ?_, ?_⟩
    · rw [write, ← start]
      exact State.startTransfer_nil (by rw [State.setEpState_ep, if_pos rfl]; exact none)
    · rw [write, ← start]
      exact State.startTransfer_settled _ idle
    · rw [write]
      exact (EpFrame.start 0 s).writeProcess
    · rw [write]
      exact fun a => congrArg (readByte · a) (State.writeProcess_mem s 0)

end Sys2Proof.Machine
end

section
/-! SUPPORT. RX-ready of a read (O45): the packet is stored, and ends the read or does not. -/

namespace Sys2Proof.Machine

variable {s t u : State} {i : EpIx} {h : Ref} {more : List Ref}

/-- How many bytes of the packet in the bank the head read takes (R190). -/
def State.reads (s : State) (i : EpIx) (h : Ref) : Len :=
  lenMin (s.ep i).sta.bytecnt ((s.req h).len - (s.req h).xfrd)

/-- In `u` the next bytes of read `h` are those of the bank, and nothing but endpoint `i`, the read and those bytes is
written. -/
def State.storedPacket (s : State) (i : EpIx) (h : Ref) (u : State) : Prop :=
  (∀ j, j ≠ i → u.ep j = s.ep j) ∧ (∀ k, k ≠ h → u.req k = s.req k) ∧
  SameMemoryOutside (bufAt (s.req h).buf (s.req h).xfrd) (s.reads i h).toNat s u ∧
  (Memory.wf s.mem = true → (s.reads i h).toNat ≤ (s.ep i).fifo.rx.length →
    readBytes u.mem (bufAt (s.req h).buf (s.req h).xfrd) (s.reads i h).toNat =
      (s.ep i).fifo.rx.take (s.reads i h).toNat)

theorem State.readBank_storedPacket (s : State) (i : EpIx) (h : Ref) : s.storedPacket i h (s.readBank i h) := by
  refine ⟨fun j hj => State.readBank_ep_other s i j h hj, fun k hk => ?_, State.readBank_memory s i h, fun w enough => ?_⟩
  · rw [State.readBank_req, if_neg fun e => hk e.1]
  · have written : (s.readBank i h).mem = writeBytes s.mem (bufAt (s.req h).buf (s.req h).xfrd)
        (s.bankBytes (s.ep i).fifo.rx (s.reads i h).toNat) := rfl
    rw [written, State.bankBytes_of_le _ _ _ enough]
    have back := readBytes_writeBytes ((s.ep i).fifo.rx.take (s.reads i h).toNat) s.mem
      (bufAt (s.req h).buf (s.req h).xfrd) w (by rw [List.length_take]; omega)
    rwa [List.length_take, Nat.min_eq_left enough] at back

/-- The packet ends the read just when it fills the buffer or is short (R190, R191). -/
theorem State.readBank_readEnds (hr : s.hasReq h = true) :
    (s.readBank i h).readEnds i h (s.ep i).sta.bytecnt = true ↔
      (s.req h).xfrd + s.reads i h = (s.req h).len ∨ (s.ep i).sta.bytecnt < (s.ep i).mps := by
  unfold State.readEnds
  rw [State.readBank_req, if_pos ⟨rfl, hr⟩, State.readBank_ep_same]
  simp [State.reads]

/-- After a read has ended its endpoint starts what is queued, which is nothing or reads. -/
theorem State.readStart_of_idle (idle : (s.ep i).state = .idle)
    (reads : (s.ep i).queue = [] ∨ (s.hasDma i = false ∧ s.isIn i = false)) : s.readStart i = s.startTransfer i := by
  rcases reads with empty | ⟨noDma, out⟩
  · have peek : s.peek i = none := by rw [State.peek_eq, empty]; rfl
    rw [State.startTransfer_nil empty, State.readStart]
    unfold readLoop
    rw [peek]
    exact State.setEpState_self idle
  · exact (State.readable.startTransfer ⟨idle, noDma, out⟩).symm

/-- Settles O45: `readPacket` stores the packet, and if that ends the read it is completed and the queue started. -/
theorem rxReadyStoresThePacket : Obligations.RxReadyStoresThePacket := by
  intro i h more s hs hq hr _ q e room n ends e' stored t
  have peek : s.peek i = some h := by rw [State.peek_eq, hq]; rfl
  have received : t = if (s.readBank i h).readEnds i h (s.ep i).sta.bytecnt
      then ((s.readBank i h).endHead i .ok).readStart i else s.readBank i h := by
    unfold t State.rxReady State.readPacket
    rw [if_pos hs, peek]
    rfl
  have frame : EpFrame i (h :: more) s t := by
    unfold t State.rxReady
    rw [if_pos hs, ← hq]
    exact (EpFrame.start i s).readPacket
  have ep : (s.readBank i h).ep i = e' := State.readBank_ep_same s i h
  have req : (s.readBank i h).req h = { q with xfrd := q.xfrd + n } := by
    rw [State.readBank_req, if_pos ⟨rfl, hr⟩]
    rfl
  have packet : stored (s.readBank i h) := State.readBank_storedPacket s i h
  refine ⟨frame, fun more_room => ?_, fun full reads => ?_⟩
  · rw [received, if_neg (mt (State.readBank_readEnds hr).mp more_room)]
    exact ⟨State.readBank_rest s i h, ep, req, packet⟩
  · rw [if_pos ((State.readBank_readEnds hr).mpr full)] at received
    obtain ⟨other, requests, outside, bytes⟩ := packet
    have E : Ended i h .ok more (s.readBank i h) ((s.readBank i h).endHead i .ok) :=
      State.endHead_ended (by rw [ep]; exact hq) ((State.readBank_hasReq s i h h).trans hr)
    have start : t = ((s.readBank i h).endHead i .ok).startTransfer i := by
      refine received.trans (State.readStart_of_idle (by rw [E.ep]) ?_)
      rw [E.ep]
      refine reads.imp_right fun ⟨noDma, out⟩ => ⟨?_, ?_⟩
      · exact (State.hasDma_congr (s := s) (congrArg State.cfg E.rest :) i).trans noDma
      · unfold State.isIn at out ⊢
        rw [E.ep, ep]
        exact out
    refine ⟨_, ?_, ?_, ?_, ⟨?_, ?_, ?_, ?_⟩, start, fun none => ?_, ?_⟩
    · rw [E.mem, E.draws]
      exact E.rest
    · rw [E.ep, ep]
    · rw [E.req, req]
    · exact fun j hj => (E.other j hj).trans (other j hj)
    · exact fun k hk => (E.requests k hk).trans (requests k hk)
    · exact fun a ha => (congrArg (readByte · a) E.mem).trans (outside a ha)
    · rw [E.mem]
      exact bytes
    · subst none
      exact start.trans E.startTransfer_nil
    · rw [start]
      exact E.settled

end Sys2Proof.Machine
end

section
/-! SUPPORT. DMA completion (O48): the channel is halted, the slice counted, and the next one programmed, the request ended
or waited for; `Served` says what is left of the rest. -/

namespace Sys2Proof.Machine

variable {s t u v : State} {i : EpIx} {h : Ref} {more : List Ref} {r : Result}

/-! ### The pending interrupts stay -/

theorem State.dmaSlice_intPending (s : State) (i : EpIx) : (s.dmaSlice i).intPending = s.intPending := by
  unfold State.dmaSlice
  split
  · rfl
  · dsimp only
    split <;> rfl

theorem dmaStartLoop_intPending (i : EpIx) (k : Nat) (s : State) : (dmaStartLoop i k s).intPending = s.intPending := by
  induction k generalizing s with
  | zero => rfl
  | succ k ih =>
    unfold dmaStartLoop
    split
    · rfl
    · split
      · split
        · rfl
        · rw [ih, State.setEpState_intPending, State.complete_intPending]
      · rw [State.dmaSlice_intPending, State.setEpState_intPending]

theorem writeLoop_intPending (i : EpIx) (k : Nat) (s : State) : (writeLoop i k s).intPending = s.intPending := by
  induction k generalizing s with
  | zero => rfl
  | succ k ih =>
    unfold writeLoop
    split
    · rfl
    · next h _ =>
      have owed : ((s.countSent h).oweZlp i h).intPending = s.intPending := by
        unfold State.oweZlp
        split <;> rfl
      dsimp only
      split
      · exact owed
      · rw [ih, State.complete_intPending, owed]

theorem readLoop_intPending (i : EpIx) (k : Nat) (s : State) : (readLoop i k s).intPending = s.intPending := by
  induction k generalizing s with
  | zero => rfl
  | succ k ih =>
    unfold readLoop
    split
    · rfl
    · split
      · rw [ih, State.complete_intPending]
      · dsimp only
        split
        · split
          · rw [ih, State.setEpState_intPending, State.complete_intPending]
            rfl
          · rfl
        · rfl

theorem State.startTransfer_intPending (s : State) (i : EpIx) : (s.startTransfer i).intPending = s.intPending := by
  unfold State.startTransfer State.dmaStart State.writeProcess State.readStart
  split
  · rfl
  · split
    · split
      · rfl
      · exact dmaStartLoop_intPending i _ s
    · split
      · exact writeLoop_intPending i _ s
      · exact readLoop_intPending i _ s

theorem State.completeAndStart_intPending (s : State) (i : EpIx) (r : Result) :
    (s.completeAndStart i r).intPending = s.intPending := by
  rw [State.completeAndStart, State.startTransfer_intPending, State.setEpState_intPending, State.complete_intPending]

theorem State.countSlice_intPending (s : State) (i : EpIx) (h : Ref) (k : Len) :
    (s.countSlice i h k).intPending = s.intPending := by
  unfold State.countSlice
  dsimp only
  split <;> rfl

theorem State.dmaCheck_intPending (s : State) (i : EpIx) (h : Ref) : (s.dmaCheck i h).intPending = s.intPending := by
  unfold State.dmaCheck State.eocIncomplete
  split
  · exact State.completeAndStart_intPending s i .ok
  · split
    · rfl
    · exact State.completeAndStart_intPending s i .ok

/-! ### The handler in steps -/

/-- A DMA channel halted, with its status acknowledged (R205). -/
def DmaChan.halted (c : DmaChan) : DmaChan := { c with eob := false, eoc := false, err := false, en := false, running := false }

/-- An endpoint with its channel halted. -/
def Endpoint.haltedDma (e : Endpoint) : Endpoint := { e with chan := e.chan.halted, dmaBusy := false }

/-- The channel of endpoint `i` is halted, its slice abandoned and its interrupt acknowledged (R205, assumption 19). -/
def State.haltDma (s : State) (i : EpIx) : State :=
  ((s.scrambleSlice i).modEp i Endpoint.haltedDma).setDmaPending i false

/-- The channel ended the slice of request `h` at an end of its buffer (R205). -/
def State.endOfBuffer (s : State) (i : EpIx) (h : Ref) : Prop :=
  (s.ep i).chan.eob = true ∧ (s.ep i).chan.eoc = false ∧ (s.ep i).chan.err = false ∧
    (s.ep i).chan.remcount ≤ (s.req h).inflight

/-- The channel ended the slice with the whole transfer (R205). -/
def State.endOfChannel (s : State) (i : EpIx) : Prop :=
  (s.ep i).chan.eoc = true ∧ (s.ep i).chan.eob = false ∧ (s.ep i).chan.err = false

theorem State.haltDma_req (s : State) (i : EpIx) (k : Ref) : (s.haltDma i).req k = s.req k := by
  obtain ⟨rest, -⟩ := State.scrambleSlice_spec s i
  exact State.req_congr (congrArg State.reqs rest :) k

/-! ### What is left of the rest -/

/-- `s` with what serving DMA writes taken from `t`, and `log` and `done` added to its traces. -/
def State.servedAs (s t : State) (log : List Event) (done : List Callback) : State :=
  { s with
    eps := t.eps, reqs := t.reqs, mem := t.mem, draws := t.draws, log := s.log ++ log, cbList := s.cbList ++ done
    intPending := { s.intPending with dma := t.intPending.dma } }

/-- `u` is `s` with endpoint `i` made `e` and its request `h` served: the events `log` and the callbacks `done` are new, and
of the slice under way in `s` no more than its bytes are left open. -/
structure Served (i : EpIx) (h : Ref) (s : State) (e : Endpoint) (log : List Event) (done : List Callback) (u : State) :
    Prop where
  rest : u = s.servedAs u log done
  ep : u.ep i = { e with fifo := { (s.ep i).fifo with rx := (u.ep i).fifo.rx } }
  other : ∀ j, j ≠ i → u.ep j = s.ep j
  requests : ∀ g, g ≠ h → u.req g = s.req g
  memory : SameMemoryOutside (s.ep i).chan.addr (s.liveSlice i) s u
  left : RxLeft (s.liveSlice i) (s.ep i).fifo.rx (u.ep i).fifo.rx

theorem Served.ep_fifo {e : Endpoint} {log : List Event} {done : List Callback} (S : Served i h s e log done u) :
    u.ep i = { e with fifo := (u.ep i).fifo } := by
  have fifo : (u.ep i).fifo = { (s.ep i).fifo with rx := (u.ep i).fifo.rx } := (congrArg Endpoint.fifo S.ep :)
  rw [fifo]
  exact S.ep

/-- `u` with the endpoints and requests of `v`, and `log` and `done` added to its traces. -/
def State.movedAs (u v : State) (log : List Event) (done : List Callback) : State :=
  { u with eps := v.eps, reqs := v.reqs, log := u.log ++ log, cbList := u.cbList ++ done }

/-- Serving goes on by what writes endpoint `i` but for its banks, and request `h`. -/
theorem Served.moved {e e' : Endpoint} {log l : List Event} {done d : List Callback} (S : Served i h s e log done u)
    (rest : v = u.movedAs v l d) (ep : v.ep i = { e' with fifo := (u.ep i).fifo }) (other : ∀ j, j ≠ i → v.ep j = u.ep j)
    (requests : ∀ g, g ≠ h → v.req g = u.req g) : Served i h s e' (log ++ l) (done ++ d) v := by
  have mem : v.mem = u.mem := (congrArg State.mem rest :)
  have draws : v.draws = u.draws := (congrArg State.draws rest :)
  have pending : v.intPending = u.intPending := (congrArg State.intPending rest :)
  have fifo : v.ep i = { e' with fifo := { (s.ep i).fifo with rx := (u.ep i).fifo.rx } } := by
    rw [ep, (congrArg Endpoint.fifo S.ep :)]
  have rx : (v.ep i).fifo.rx = (u.ep i).fifo.rx := by rw [ep]
  refine ⟨?_, rx ▸ fifo, fun j hj => (other j hj).trans (S.other j hj), fun g hg => (requests g hg).trans (S.requests g hg),
    fun a ha => (congrArg (readByte · a) mem).trans (S.memory a ha), rx ▸ S.left⟩
  calc v = u.movedAs v l d := rest
    _ = (s.servedAs u log done).movedAs v l d := congrArg (State.movedAs · v l d) S.rest
    _ = s.servedAs v (log ++ l) (done ++ d) := by
      unfold State.servedAs
      rw [mem, draws, pending, ← List.append_assoc, ← List.append_assoc]
      rfl

theorem State.haltDma_served (s : State) (i : EpIx) (h : Ref) :
    Served i h s (s.ep i).haltedDma [] [] (s.haltDma i) := by
  obtain ⟨rest, other, ep, left, memory, -⟩ := State.scrambleSlice_spec s i
  have halted : (s.haltDma i).ep i = ((s.scrambleSlice i).ep i).haltedDma := State.modEp_ep_same (s.scrambleSlice i) i _
  refine ⟨?_, ?_, fun j hj => ?_, fun g _ => State.haltDma_req s i g, memory, ?_⟩
  · have reqs : (s.haltDma i).reqs = s.reqs := (congrArg State.reqs rest :)
    calc s.haltDma i = { s.scrambleSlice i with
          eps := (s.haltDma i).eps
          intPending := { (s.scrambleSlice i).intPending with dma := (s.haltDma i).intPending.dma } } := rfl
      _ = s.servedAs (s.haltDma i) [] [] := by
        unfold State.servedAs
        rw [rest, reqs, List.append_nil, List.append_nil]
        rfl
  · rw [halted]
    conv_lhs => rw [ep]
    rfl
  · exact (State.modEp_ep_other (s.scrambleSlice i) i j _ hj).trans (other j hj)
  · rw [halted]
    exact left

/-- What the handler does with a head request in a transfer: it counts the slice by the channel's status (R205). -/
theorem State.dmaInterrupt_eq (hm : s.moving i = true) (hq : (s.ep i).queue = h :: more) :
    s.dmaInterrupt i =
      let d := (s.ep i).chan
      let q := s.req h
      let counted := fun k => (s.haltDma i).countSlice i h k
      if (d.eob && !d.eoc && !d.err) = true ∧ d.remcount ≤ q.inflight then
        let u := counted (q.inflight - d.remcount)
        if (u.req h).xfrd < (u.req h).len then u.dmaSlice i else u.dmaCheck i h
      else if (d.eoc && !d.eob && !d.err) = true then (counted q.inflight).dmaCheck i h
      else (s.haltDma i).completeAndStart i .ioError := by
  have halted := (State.haltDma_served s i h).ep
  have peek : (s.haltDma i).peek i = some h := by rw [State.peek_eq, halted]; exact congrArg List.head? hq
  have state : ((s.haltDma i).ep i).state = (s.ep i).state := by rw [halted]; rfl
  have moves : ¬(((s.haltDma i).ep i).state ≠ .sending ∧ ((s.haltDma i).ep i).state ≠ .receiving) := by
    rw [state, not_and_or, not_not, not_not]
    exact (State.moving_iff s i).mp hm
  unfold State.dmaInterrupt
  extract_lets d s1
  rw [show s1 = s.haltDma i from rfl, peek]
  dsimp only
  rw [if_neg moves, State.haltDma_req]

/-! ### The steps -/

/-- The event of a counted slice: an OUT endpoint's cache is invalidated over it (R66). -/
def State.sliceSeen (s : State) (i : EpIx) (h : Ref) (k : Len) : List Event :=
  if s.isIn i then [] else [.cacheInvalidate (bufAt (s.req h).buf (s.req h).xfrd) k]

theorem State.countSlice_eq (s : State) (i : EpIx) (h : Ref) (k : Len) : s.countSlice i h k =
    ({ s with log := s.log ++ s.sliceSeen i h k } : State).modReq h
      fun q => { q with xfrd := q.xfrd + k, inflight := 0 } := by
  unfold State.countSlice State.sliceSeen
  dsimp only
  split
  · rw [List.append_nil]
  · rfl

theorem State.countSlice_req_same (hr : s.hasReq h = true) (k : Len) :
    (s.countSlice i h k).req h = { s.req h with xfrd := (s.req h).xfrd + k, inflight := 0 } := by
  rw [State.countSlice_eq]
  exact State.modReq_req_same _ h (fun q => { q with xfrd := q.xfrd + k, inflight := 0 }) hr

section
variable {e : Endpoint} {log : List Event}

/-- Counting a slice leaves everything but its request and the trace (R66, R205). -/
theorem Served.countSlice (S : Served i h s e log [] u) (k : Len) :
    Served i h s e (log ++ u.sliceSeen i h k) [] (u.countSlice i h k) := by
  have counted := State.countSlice_eq u i h k
  refine S.moved (e' := e) (d := []) ?_ ?_ (fun j _ => ?_) fun g hg => ?_
  · rw [counted, State.movedAs, List.append_nil]
    rfl
  · rw [counted, State.modReq_ep]
    exact S.ep_fifo
  · rw [counted, State.modReq_ep]
    rfl
  · rw [counted]
    exact State.modReq_req_other _ h g _ hg

/-- The next slice is programmed (R203). -/
theorem Served.dmaSlice (S : Served i h s e log [] u) (hp : u.peek i = some h) (hr : u.hasReq h = true) :
    Served i h s (e.sliced (bufAt (u.req h).buf (u.req h).xfrd) (u.sliceLen (u.req h)))
      (log ++ if u.isIn i then [.cacheFlush (bufAt (u.req h).buf (u.req h).xfrd) (u.sliceLen (u.req h))] else [])
      [] (u.dmaSlice i) := by
  have P := State.dmaSlice_sliced hp hr
  refine S.moved (d := []) ?_ ?_ P.other P.requests
  · rw [State.movedAs, List.append_nil]
    exact P.rest
  · rw [P.ep]
    exact congrArg (Endpoint.sliced · _ _) S.ep_fifo

/-- The head request is completed, and what is queued behind it started (R205). -/
theorem Served.completeAndStart (S : Served i h s e log [] u) (hq : (u.ep i).queue = h :: more)
    (hr : u.hasReq h = true) (r : Result) :
    ∃ v, Served i h s { e with state := .idle, queue := more } log [.done i h r] v ∧ v.req h = completed r (u.req h) ∧
      u.completeAndStart i r = v.startTransfer i ∧ (more = [] → u.completeAndStart i r = v) ∧
      ((u.completeAndStart i r).ep i).settled := by
  have E : Ended i h r more u (u.endHead i r) := State.endHead_ended hq hr
  have served : Served i h s { e with state := .idle, queue := more } (log ++ []) ([] ++ [.done i h r]) (u.endHead i r) := by
    refine S.moved ?_ ?_ E.other E.requests
    · rw [State.movedAs, List.append_nil]
      exact E.rest
    · rw [E.ep]
      exact congrArg (fun x : Endpoint => { x with state := .idle, queue := more }) S.ep_fifo
  rw [List.append_nil] at served
  refine ⟨_, served, E.req, rfl, fun empty => ?_, E.settled⟩
  subst empty
  exact E.startTransfer_nil

end

/-! ### The head's slice, counted -/

/-- The channel halted and `k` bytes of the head's slice counted (R205). -/
def State.countedDma (s : State) (i : EpIx) (h : Ref) (k : Len) : State := (s.haltDma i).countSlice i h k

theorem State.haltDma_hasReq (s : State) (i : EpIx) (k : Ref) : (s.haltDma i).hasReq k = s.hasReq k := by
  obtain ⟨rest, -⟩ := State.scrambleSlice_spec s i
  have reqs : (s.haltDma i).reqs = s.reqs := (congrArg State.reqs rest :)
  unfold State.hasReq
  rw [reqs]

theorem State.countedDma_hasReq (s : State) (i : EpIx) (h : Ref) (k : Len) (g : Ref) :
    (s.countedDma i h k).hasReq g = s.hasReq g := by
  rw [State.countedDma, State.countSlice_eq, State.modReq_hasReq]
  exact State.haltDma_hasReq s i g

theorem State.countedDma_req (hr : s.hasReq h = true) (k : Len) :
    (s.countedDma i h k).req h = { s.req h with xfrd := (s.req h).xfrd + k, inflight := 0 } := by
  rw [State.countedDma, State.countSlice_req_same ((s.haltDma_hasReq i h).trans hr), State.haltDma_req]

theorem State.countedDma_served (s : State) (i : EpIx) (h : Ref) (k : Len) :
    Served i h s (s.ep i).haltedDma (s.sliceSeen i h k) [] (s.countedDma i h k) := by
  have stopped := s.haltDma_served i h
  have seen : (s.haltDma i).sliceSeen i h k = s.sliceSeen i h k := by
    unfold State.sliceSeen State.isIn
    rw [stopped.ep, State.haltDma_req]
    rfl
  have counted := stopped.countSlice k
  rwa [seen] at counted

theorem Served.queue {e : Endpoint} {log : List Event} {done : List Callback} (S : Served i h s e log done u) :
    (u.ep i).queue = e.queue := (congrArg Endpoint.queue S.ep :)

/-! ### The handler by the channel's status -/

theorem State.dmaInterrupt_endOfBuffer (hm : s.moving i = true) (hq : (s.ep i).queue = h :: more)
    (status : s.endOfBuffer i h) :
    let w := s.countedDma i h ((s.req h).inflight - (s.ep i).chan.remcount)
    s.dmaInterrupt i = if (w.req h).xfrd < (w.req h).len then w.dmaSlice i else w.dmaCheck i h := by
  obtain ⟨eob, eoc, err, count⟩ := status
  rw [State.dmaInterrupt_eq hm hq]
  exact if_pos ⟨by rw [eob, eoc, err]; rfl, count⟩

theorem State.dmaInterrupt_endOfChannel (hm : s.moving i = true) (hq : (s.ep i).queue = h :: more)
    (status : s.endOfChannel i) : s.dmaInterrupt i = (s.countedDma i h (s.req h).inflight).dmaCheck i h := by
  obtain ⟨eoc, eob, err⟩ := status
  rw [State.dmaInterrupt_eq hm hq]
  dsimp only
  rw [eoc, eob, err]
  rfl

theorem State.dmaInterrupt_failed (hm : s.moving i = true) (hq : (s.ep i).queue = h :: more)
    (noBuffer : ¬s.endOfBuffer i h) (noChannel : ¬s.endOfChannel i) :
    s.dmaInterrupt i = (s.haltDma i).completeAndStart i .ioError := by
  rw [State.dmaInterrupt_eq hm hq]
  dsimp only
  rw [if_neg, if_neg]
  · intro bits
    simp only [Bool.and_eq_true, Bool.not_eq_true'] at bits
    obtain ⟨⟨eoc, eob⟩, err⟩ := bits
    exact noChannel ⟨eoc, eob, err⟩
  · rintro ⟨bits, count⟩
    simp only [Bool.and_eq_true, Bool.not_eq_true'] at bits
    obtain ⟨⟨eob, eoc⟩, err⟩ := bits
    exact noBuffer ⟨eob, eoc, err, count⟩

/-- The handler leaves the pending interrupts as halting the channel does. -/
theorem State.dmaInterrupt_intPending (hm : s.moving i = true) (hq : (s.ep i).queue = h :: more) :
    (s.dmaInterrupt i).intPending = (s.haltDma i).intPending := by
  rw [State.dmaInterrupt_eq hm hq]
  dsimp only
  split
  · split
    · rw [State.dmaSlice_intPending, State.countSlice_intPending]
    · rw [State.dmaCheck_intPending, State.countSlice_intPending]
  · split
    · rw [State.dmaCheck_intPending, State.countSlice_intPending]
    · rw [State.completeAndStart_intPending]

/-- The interrupt of the channel is acknowledged, and the others pend as before. -/
theorem State.dmaInterrupt_pending (hm : s.moving i = true) (hq : (s.ep i).queue = h :: more) (c : EpIx) :
    (s.dmaInterrupt i).intPending.dma.getLsbD c.val = (decide (c ≠ i) && s.intPending.dma.getLsbD c.val) := by
  by_cases hc : c = i
  · subst hc
    rw [State.dmaInterrupt_intPending hm hq]
    show ((s.scrambleSlice c).intPending.dma &&& ~~~(BitVec.twoPow 16 c.val)).getLsbD c.val = _
    simp
  · rw [(EpFrame.start i s).dmaInterrupt.dmaBits c hc]
    simp [hc]

/-- The head request of endpoint `i` has ended with `r`, made `q` before, and the queue has been started again. -/
def Concludes (i : EpIx) (h : Ref) (more : List Ref) (s : State) (r : Result) (q : Request) (log : List Event) (t : State) :
    Prop :=
  ∃ u, Served i h s { (s.ep i).haltedDma with state := .idle, queue := more } log [.done i h r] u ∧
    u.req h = completed r q ∧ t = u.startTransfer i ∧ (more = [] → t = u) ∧ (t.ep i).settled

theorem State.countedDma_concludes (hq : (s.ep i).queue = h :: more) (hr : s.hasReq h = true) (k : Len) :
    Concludes i h more s .ok { s.req h with xfrd := (s.req h).xfrd + k } (s.sliceSeen i h k)
      ((s.countedDma i h k).completeAndStart i .ok) := by
  have S := s.countedDma_served i h k
  have C := S.completeAndStart (S.queue.trans hq) ((s.countedDma_hasReq i h k h).trans hr) .ok
  rwa [State.countedDma_req hr] at C

theorem State.haltDma_concludes (hq : (s.ep i).queue = h :: more) (hr : s.hasReq h = true) :
    Concludes i h more s .ioError (s.req h) [] ((s.haltDma i).completeAndStart i .ioError) := by
  have S := s.haltDma_served i h
  have C := S.completeAndStart (S.queue.trans hq) ((s.haltDma_hasReq i h).trans hr) .ioError
  rwa [State.haltDma_req] at C

/-- With bytes left after an end of buffer the next slice is programmed (R203, R205). -/
theorem State.dmaInterrupt_nextSlice (hm : s.moving i = true) (hq : (s.ep i).queue = h :: more) (hr : s.hasReq h = true)
    (status : s.endOfBuffer i h) (bound : (s.req h).xfrd.toNat + (s.req h).inflight.toNat ≤ (s.req h).len.toNat) :
    let k := (s.req h).inflight - (s.ep i).chan.remcount
    let q := { s.req h with xfrd := (s.req h).xfrd + k }
    q.xfrd ≠ q.len →
      Served i h s ((s.ep i).haltedDma.sliced (bufAt q.buf q.xfrd) (s.sliceLen q))
        (s.sliceSeen i h k ++ if s.isIn i then [.cacheFlush (bufAt q.buf q.xfrd) (s.sliceLen q)] else []) []
        (s.dmaInterrupt i) ∧
      (s.dmaInterrupt i).req h = { q with inflight := s.sliceLen q, started := true } := by
  intro k q unfinished
  have S := s.countedDma_served i h k
  have req : (s.countedDma i h k).req h = { q with inflight := 0 } := State.countedDma_req hr k
  have hasReq := (s.countedDma_hasReq i h k h).trans hr
  have peek : (s.countedDma i h k).peek i = some h := by rw [State.peek_eq, S.queue]; exact congrArg List.head? hq
  have isIn : (s.countedDma i h k).isIn i = s.isIn i := by unfold State.isIn; rw [S.ep]; rfl
  have cap : (s.countedDma i h k).cfg = s.cfg := (congrArg State.cfg S.rest :)
  have len : (s.countedDma i h k).sliceLen { q with inflight := 0 } = s.sliceLen q := by unfold State.sliceLen; rw [cap]
  have below : ((s.countedDma i h k).req h).xfrd < ((s.countedDma i h k).req h).len := by
    rw [req]
    have count : (s.ep i).chan.remcount ≤ (s.req h).inflight := status.2.2.2
    have left : (s.req h).xfrd + ((s.req h).inflight - (s.ep i).chan.remcount) ≠ (s.req h).len := unfinished
    show (s.req h).xfrd + ((s.req h).inflight - (s.ep i).chan.remcount) < (s.req h).len
    bv_omega
  have next : s.dmaInterrupt i = (s.countedDma i h k).dmaSlice i :=
    (State.dmaInterrupt_endOfBuffer hm hq status).trans (if_pos below)
  have served := S.dmaSlice peek hasReq
  have sliced := (State.dmaSlice_sliced peek hasReq).req
  rw [req, len] at served sliced
  rw [isIn] at served
  rw [next]
  exact ⟨served, sliced⟩

/-- Settles O48, by the channel's status. -/
theorem dmaCompletionCountsTheSlice : Obligations.DmaCompletionCountsTheSlice := by
  intro i h more s hm hq hr bound q e k x n eob eoc stopped seen t only ended
  have only_of : ∀ {u e' log done}, Served i h s e' log done u → only u e' log done :=
    fun S => ⟨S.rest, S.ep, S.other, S.requests, S.memory, S.left⟩
  have ended_of : ∀ {r q' log}, Concludes i h more s r q' log t → ended r q' log :=
    fun ⟨u, S, req, rest⟩ => ⟨u, only_of S, req, rest⟩
  have req : ((s.countedDma i h k).req h) = { q with xfrd := x, inflight := 0 } := State.countedDma_req hr k
  have frame : EpFrame i (h :: more) s t := hq ▸ (EpFrame.start i s).dmaInterrupt
  have buffer : eob → k = q.inflight - e.chan.remcount := fun status => if_neg (by rw [status.2.1]; nofun)
  have channel : eoc → t = (s.countedDma i h k).dmaCheck i h := fun status => by
    have whole : k = q.inflight := if_pos status.1
    rw [whole]
    exact State.dmaInterrupt_endOfChannel hm hq status
  have incomplete : eoc → x ≠ q.len → t = (s.countedDma i h k).eocIncomplete i := fun status unfinished => by
    rw [channel status, State.dmaCheck, if_neg (by rw [req]; exact unfinished)]
  have cfg : (s.countedDma i h k).cfg = s.cfg := (congrArg State.cfg (s.countedDma_served i h k).rest :)
  refine ⟨frame, State.dmaInterrupt_pending hm hq, fun status unfinished => ?_, fun status all => ended_of ?_,
    fun noBuffer noChannel => ended_of ?_, fun status unfinished policy => ?_, fun status unfinished policy => ended_of ?_⟩
  · have next := State.dmaInterrupt_nextSlice hm hq hr status bound
    rw [← buffer status] at next
    obtain ⟨served, req⟩ := next unfinished
    exact ⟨only_of served, req⟩
  · have checked : t = (s.countedDma i h k).dmaCheck i h := status.elim (fun status => by
      have passed := State.dmaInterrupt_endOfBuffer hm hq status
      rw [← buffer status] at passed
      refine passed.trans (if_neg ?_)
      rw [req]
      show ¬x < q.len
      rw [all]
      exact BitVec.lt_irrefl _) channel
    rw [checked, State.dmaCheck, if_pos (by rw [req]; exact all)]
    exact State.countedDma_concludes hq hr k
  · rw [show t = _ from State.dmaInterrupt_failed hm hq noBuffer noChannel]
    exact State.haltDma_concludes hq hr
  · have waits : t = s.countedDma i h k := by
      rw [incomplete status unfinished, State.eocIncomplete, cfg, policy]
    rw [waits]
    exact ⟨only_of (s.countedDma_served i h k), req⟩
  · rw [incomplete status unfinished, State.eocIncomplete, cfg, policy]
    exact State.countedDma_concludes hq hr k

end Sys2Proof.Machine
end

section
/-! SUPPORT. The encodings read back (O1, O2, O4): the fields of a command word and of a SETUP packet, the operands of a
stimulus record, and then each port's decoder on what the encoder writes. -/

namespace Sys2Proof.Machine

/-! ### The fields of a command word (R95) -/

section
variable (op : Byte) (ep : EpIx) (flag : Bool) (type : BitVec 2)

@[simp] theorem packCommand_high : (packCommand op ep flag type).extractLsb' 15 17 = 0 := by
  unfold packCommand
  iterate 4 rw [BitVec.extractLsb'_append_eq_of_le (by decide)]
  rfl

@[simp] theorem cmdOp_packCommand : cmdOp (packCommand op ep flag type) = op := BitVec.extractLsb'_append_eq_right

@[simp] theorem cmdEp_packCommand : cmdEp (packCommand op ep flag type) = ep := by
  unfold cmdEp packCommand
  rw [BitVec.extractLsb'_append_eq_of_le (by decide), BitVec.extractLsb'_append_eq_right]

@[simp] theorem cmdFlag_packCommand : cmdFlag (packCommand op ep flag type) = flag := by
  unfold cmdFlag packCommand
  iterate 3 rw [BitVec.getLsbD_append]
  simp

@[simp] theorem cmdType_packCommand : cmdType (packCommand op ep flag type) = epTypeOfBits type := by
  unfold cmdType packCommand
  iterate 3 rw [BitVec.extractLsb'_append_eq_of_le (by decide)]
  exact congrArg epTypeOfBits BitVec.extractLsb'_append_eq_right

end

@[simp] theorem epTypeOfBits_bitsOfEpType (t : EpType) : epTypeOfBits (bitsOfEpType t) = t := by cases t <;> rfl

@[simp] theorem descOfWord_wordOfDesc (d : EpDesc) : descOfWord (wordOfDesc d) = d := by
  have epaddr : (wordOfDesc d).extractLsb' 0 8 = d.epaddr := BitVec.extractLsb'_append_eq_right
  have attrs : (wordOfDesc d).extractLsb' 8 8 = d.attrs := by
    unfold wordOfDesc
    rw [BitVec.extractLsb'_append_eq_of_le (by decide)]
    exact BitVec.extractLsb'_append_eq_right
  have mps : (wordOfDesc d).extractLsb' 16 16 = d.mps := by
    unfold wordOfDesc
    rw [BitVec.extractLsb'_append_eq_of_le (by decide)]
    exact BitVec.extractLsb'_append_eq_left
  rw [descOfWord, epaddr, attrs, mps]

/-- What is no operation decodes to INVALID_COMMAND, whatever its argument (R164). -/
theorem decodeCommand_of_invalid {w : Word} (arg : Word) (h : isInvalidCommand w = true) :
    decodeCommand w arg = .invalidCommand w := by
  unfold decodeCommand
  split
  · rfl
  · next high =>
    have high : w.extractLsb' 15 17 = 0 := by simpa using high
    have op : (cmdOp w).toNat = w.toNat % 256 := by simp [cmdOp]
    have none : w.toNat % 256 = 0 ∨ w.toNat / 16 % 16 ≠ 0 := by
      simpa [isInvalidCommand, high, BitVec.toNat_eq, Nat.shiftRight_eq_div_pow] using h
    split
    iterate 15 next => omega
    rfl

/-! ### The fields of a SETUP packet (R81) -/

section
variable (t : BitVec 2) (code : Byte) (a : SetupArgs)

@[simp] theorem packSetup_recip : (packSetup t code a).recip = a.recip := BitVec.extractLsb'_append_eq_right

@[simp] theorem packSetup_rtype : (packSetup t code a).rtype = t := by
  unfold SetupPacket.rtype packSetup
  rw [BitVec.extractLsb'_append_eq_of_le (by decide)]
  exact BitVec.extractLsb'_append_eq_right

@[simp] theorem packSetup_dirIn : (packSetup t code a).dirIn = a.dirIn := by
  unfold SetupPacket.dirIn packSetup
  iterate 3 rw [BitVec.getLsbD_append]
  simp

@[simp] theorem packSetup_request : (packSetup t code a).request = code := by
  unfold SetupPacket.request packSetup
  iterate 3 rw [BitVec.extractLsb'_append_eq_of_le (by decide)]
  exact BitVec.extractLsb'_append_eq_right

@[simp] theorem packSetup_value : (packSetup t code a).value = a.value := by
  unfold SetupPacket.value packSetup
  iterate 4 rw [BitVec.extractLsb'_append_eq_of_le (by decide)]
  exact BitVec.extractLsb'_append_eq_right

@[simp] theorem packSetup_index : (packSetup t code a).index = a.index := by
  unfold SetupPacket.index packSetup
  iterate 5 rw [BitVec.extractLsb'_append_eq_of_le (by decide)]
  exact BitVec.extractLsb'_append_eq_right

@[simp] theorem packSetup_length : (packSetup t code a).length = a.length := by
  unfold SetupPacket.length packSetup
  iterate 5 rw [BitVec.extractLsb'_append_eq_of_le (by decide)]
  exact BitVec.extractLsb'_append_eq_left

@[simp] theorem packSetup_args : (packSetup t code a).args = a := by simp [SetupPacket.args]

end

/-- A packet is its type bits, its request code and its operands: no bit is left over. -/
theorem packSetup_fields (p : SetupPacket) : packSetup p.rtype p.request p.args = p := by
  have dir : BitVec.ofBool p.dirIn = p.extractLsb' 7 1 := by
    ext k hk
    have : k = 0 := by omega
    subst this
    simp [SetupPacket.dirIn]
  simp only [packSetup, SetupPacket.args, SetupPacket.rtype, SetupPacket.recip, SetupPacket.request, SetupPacket.value,
    SetupPacket.index, SetupPacket.length, dir]
  iterate 6 rw [BitVec.extractLsb'_append_extractLsb'_eq_extractLsb' (by decide)]
  exact BitVec.extractLsb'_eq_self

/-! ### Bytes at a port -/

/-- A number written in `n` bytes is read back, and what follows it is handed on. -/
theorem takeBytes_bytesOfNat (n x : Nat) (rest : List Byte) :
    takeBytes n (bytesOfNat n x ++ rest) = some (bytesOfNat n x, rest) := by
  have taken := takeBytes_append (bytesOfNat n x) rest
  rwa [bytesOfNat_length] at taken

theorem ofNat_natOfBytes_bytesOfNat (n w : Nat) (x : BitVec w) (h : w ≤ 8 * n) :
    BitVec.ofNat w (natOfBytes (bytesOfNat n x.toNat)) = x := by
  have small : x.toNat < 256 ^ n :=
    calc x.toNat < 2 ^ w := x.isLt
      _ ≤ 2 ^ (8 * n) := Nat.pow_le_pow_right (by decide) h
      _ = 256 ^ n := Nat.pow_mul 2 8 n
  rw [natOfBytes_bytesOfNat n _ small, BitVec.ofNat_toNat, BitVec.setWidth_eq]

theorem decode_encodeCommand (w arg : Word) (rest : List Byte) :
    decode .command (encodeCommand w arg ++ rest) = .ok (decodeCommand w arg, rest) := by
  have record : takeBytes 8 (encodeCommand w arg ++ rest) = some (encodeCommand w arg, rest) := by
    have taken := takeBytes_append (encodeCommand w arg) rest
    rwa [Laws.EncodeLength.command] at taken
  have word : (encodeCommand w arg).take 4 = bytesOfNat 4 w.toNat := List.take_left' (bytesOfNat_length _ _)
  have argument : (encodeCommand w arg).drop 4 = bytesOfNat 4 arg.toNat := List.drop_left' (bytesOfNat_length _ _)
  simp only [decode, decodeCommandBytes, record, word, argument, ofNat_natOfBytes_bytesOfNat 4 32 _ (by decide)]

/-- The packet that the encoding of a SETUP instruction spells. -/
theorem packetOfBytes_encodeSetup (t : BitVec 2) (code : Byte) (a : SetupArgs) :
    packetOfBytes (encodeSetup t code a) = packSetup t code a := ofNat_natOfBytes_bytesOfNat 8 64 _ (by decide)

theorem decode_encodeSetup (t : BitVec 2) (code : Byte) (a : SetupArgs) (rest : List Byte) :
    decode .setup (encodeSetup t code a ++ rest) = .ok (decodeSetup (packSetup t code a), rest) := by
  rw [← packetOfBytes_encodeSetup]
  simp only [decode, decodeSetupBytes, encodeSetup, takeBytes_bytesOfNat, packetOfBytes]

theorem withIx_ixByte (i : EpIx) (rest : List Byte)
    (k : EpIx → List Byte → Except DecodeError (Instr × List Byte)) : withIx (ixByte i :: rest) k = k i rest := by
  have number : (ixByte i).toNat = i.val := by simp [ixByte]; omega
  have exists_ : (ixByte i).toNat < 16 := by omega
  rw [withIx, dif_pos exists_]
  exact congrArg (k · rest) (Fin.ext number)

theorem withNat_bytesOfNat (n x : Nat) (h : x < 256 ^ n) (rest : List Byte)
    (k : Nat → List Byte → Except DecodeError (Instr × List Byte)) :
    withNat n (bytesOfNat n x ++ rest) k = k x rest := by
  rw [withNat, takeBytes_bytesOfNat]
  exact congrArg (k · rest) (natOfBytes_bytesOfNat n x h)

/-! ### Decoding what was encoded (O1) -/

/-- The record of a command word that spells `i`, with any argument of `i`'s. -/
theorem decode_encodeCommand_of {w arg : Word} {i : Instr} (h : decodeCommand w arg = i) (rest : List Byte) :
    decode .command (encodeCommand w arg ++ rest) = .ok (i, rest) := h ▸ decode_encodeCommand w arg rest

theorem decode_encodeSetup_of {t : BitVec 2} {code : Byte} {a : SetupArgs} {i : Instr}
    (h : decodeSetup (packSetup t code a) = i) (rest : List Byte) :
    decode .setup (encodeSetup t code a ++ rest) = .ok (i, rest) := h ▸ decode_encodeSetup t code a rest

theorem decodeSetup_of_unknown {code : Byte} (a : SetupArgs) (h : isUnknownRequest code = true) :
    decodeSetup (packSetup 0 code a) = .setupUnknownStandard code a := by
  have code_ : code.toNat = 2 ∨ code.toNat = 4 ∨ 13 ≤ code.toNat := by
    simpa [isUnknownRequest, BitVec.toNat_eq, BitVec.le_def, or_assoc] using h
  simp only [decodeSetup, packSetup_rtype, packSetup_request, packSetup_args, show (0 : BitVec 2).toNat = 0 from rfl]
  split
  iterate 11 next => omega
  rfl

/-- Settles O1, by the instruction: its fields are read back at its port. -/
theorem decodeOfEncode : Obligations.DecodeOfEncode := by
  intro i rest wf
  cases i with
  | configureEndpoint ep desc => exact decode_encodeCommand_of (by simp [decodeCommand]) rest
  | disableEndpoint ep => exact decode_encodeCommand_of (by simp [decodeCommand]) rest
  | allocateRequest => exact decode_encodeCommand_of (by simp [decodeCommand]) rest
  | freeRequest ep req => exact decode_encodeCommand_of (by simp [decodeCommand]) rest
  | submit ep req => exact decode_encodeCommand_of (by simp [decodeCommand]) rest
  | cancel ep req => exact decode_encodeCommand_of (by simp [decodeCommand]) rest
  | stall ep => exact decode_encodeCommand_of (by simp [decodeCommand]) rest
  | resumeStall ep => exact decode_encodeCommand_of (by simp [decodeCommand]) rest
  | allocateEndpoint n dirIn type => exact decode_encodeCommand_of (by simp [decodeCommand]) rest
  | freeEndpoint ep => exact decode_encodeCommand_of (by simp [decodeCommand]) rest
  | getFrameNumber => exact decode_encodeCommand_of (by simp [decodeCommand]) rest
  | wakeup => exact decode_encodeCommand_of (by simp [decodeCommand]) rest
  | setSelfPowered flag => exact decode_encodeCommand_of (by simp [decodeCommand]) rest
  | setPullup flag => exact decode_encodeCommand_of (by simp [decodeCommand]) rest
  | bind driver => exact decode_encodeCommand_of (by simp [decodeCommand]) rest
  | unbind => exact decode_encodeCommand_of (by simp [decodeCommand]) rest
  | invalidCommand w => exact decode_encodeCommand_of (decodeCommand_of_invalid 0 wf) rest
  | busBusreset => rfl
  | busSuspend => rfl
  | busResume => rfl
  | busSof f => simp [portOf, encode, decode, decodeStimulusBytes, withNat_bytesOfNat, f.isLt]
  | busUpresume => rfl
  | busSetup ep p => simp [portOf, encode, decode, decodeStimulusBytes, withIx_ixByte, withNat_bytesOfNat, p.isLt]
  | busRxpkt ep bytes =>
    have short : bytes.length < 65536 := by simpa [Instr.wellFormed] using wf
    simp [portOf, encode, decode, decodeStimulusBytes, withIx_ixByte, withNat_bytesOfNat, takeBytes_append, short]
  | busTxdone ep => exact withIx_ixByte ep rest fun ep rest => .ok (.busTxdone ep, rest)
  | busStallsent ep => exact withIx_ixByte ep rest fun ep rest => .ok (.busStallsent ep, rest)
  | busDmaEob c rem =>
    simp [portOf, encode, decode, decodeStimulusBytes, withIx_ixByte, withNat_bytesOfNat, rem.isLt]
  | busDmaEoc c => exact withIx_ixByte c rest fun c rest => .ok (.busDmaEoc c, rest)
  | busDmaErr c => exact withIx_ixByte c rest fun c rest => .ok (.busDmaErr c, rest)
  | busRwakeDone => rfl
  | setupGetStatus a => exact decode_encodeSetup_of (by simp [decodeSetup]) rest
  | setupClearFeature a => exact decode_encodeSetup_of (by simp [decodeSetup]) rest
  | setupSetFeature a => exact decode_encodeSetup_of (by simp [decodeSetup]) rest
  | setupSetAddress a => exact decode_encodeSetup_of (by simp [decodeSetup]) rest
  | setupGetDescriptor a => exact decode_encodeSetup_of (by simp [decodeSetup]) rest
  | setupSetDescriptor a => exact decode_encodeSetup_of (by simp [decodeSetup]) rest
  | setupGetConfiguration a => exact decode_encodeSetup_of (by simp [decodeSetup]) rest
  | setupSetConfiguration a => exact decode_encodeSetup_of (by simp [decodeSetup]) rest
  | setupGetInterface a => exact decode_encodeSetup_of (by simp [decodeSetup]) rest
  | setupSetInterface a => exact decode_encodeSetup_of (by simp [decodeSetup]) rest
  | setupSynchFrame a => exact decode_encodeSetup_of (by simp [decodeSetup]) rest
  | setupUnknownStandard code a => exact decode_encodeSetup_of (decodeSetup_of_unknown a wf) rest
  | setupNonstandardClass code a => exact decode_encodeSetup_of (by simp [decodeSetup]) rest
  | setupNonstandardVendor code a => exact decode_encodeSetup_of (by simp [decodeSetup]) rest
  | setupNonstandardReservedType code a => exact decode_encodeSetup_of (by simp [decodeSetup]) rest

/-! ### Packets read back (O2) -/

/-- The packet of a SETUP instruction `i` is `p`, and `i` is well formed. -/
def ReadsBack (p : SetupPacket) (i : Instr) : Prop := i.wellFormed = true ∧ portOf i = .setup ∧ setupOf i = p

/-- A packet is the packing of its operands with its own type bits and request code. -/
theorem packSetup_of_fields {p : SetupPacket} {t : BitVec 2} {code : Byte} (ht : p.rtype.toNat = t.toNat)
    (hc : p.request.toNat = code.toNat) : packetOfBytes (encodeSetup t code p.args) = p := by
  rw [packetOfBytes_encodeSetup, ← BitVec.eq_of_toNat_eq ht, ← BitVec.eq_of_toNat_eq hc]
  exact packSetup_fields p

/-- The packet of a standard request reads back, whether its code is named (R85) or not (R255). -/
theorem readsBack_standard {p : SetupPacket} (ht : p.rtype.toNat = 0) : ReadsBack p (decodeSetup p) := by
  have back : ∀ code : Byte, p.request.toNat = code.toNat → packetOfBytes (encodeSetup 0 code p.args) = p :=
    fun _ hc => packSetup_of_fields ht hc
  simp only [decodeSetup, ht]
  split
  iterate 11 next code => exact ⟨rfl, rfl, back _ code⟩
  next =>
    refine ⟨?_, rfl, back _ rfl⟩
    have : p.request.toNat = 2 ∨ p.request.toNat = 4 ∨ 13 ≤ p.request.toNat := by grind
    simpa [Instr.wellFormed, isUnknownRequest, BitVec.toNat_eq, BitVec.le_def, or_assoc] using this

/-- Settles O2, by the packet's type bits. -/
theorem setupPacketsReadBack : Obligations.SetupPacketsReadBack := by
  intro p
  show ReadsBack p (decodeSetup p)
  have types : p.rtype.toNat < 4 := p.rtype.isLt
  by_cases standard : p.rtype.toNat = 0
  · exact readsBack_standard standard
  · unfold decodeSetup
    split
    · next h => exact absurd h standard
    · next h => exact ⟨rfl, rfl, packSetup_of_fields h rfl⟩
    · next h => exact ⟨rfl, rfl, packSetup_of_fields h rfl⟩
    · next h1 h2 =>
      have h : p.rtype.toNat = 3 := by grind
      exact ⟨rfl, rfl, packSetup_of_fields h rfl⟩

/-! ### Words written out (O4) -/

/-- Settles O4, word by word. -/
theorem sampleWordsDecode : Obligations.SampleWordsDecode :=
  ⟨rfl, rfl, rfl, rfl, rfl, rfl⟩

end Sys2Proof.Machine
end

section
/-! SUPPORT. The bus and DMA stimuli (O27 to O29): each writes the status and the bank of its endpoint or channel, and a DMA
report ends a slice, whose bytes it moves. -/

namespace Sys2Proof.Machine

variable {s t u : State} {i c : EpIx}

/-! ### Bus events (O27) -/

/-- The controller drops the session of every endpoint that exists (R97). -/
def State.dropSessions (s : State) : State := s.forEps s.epList fun i s => s.modEp i Endpoint.dropSession

theorem State.dropSessions_epsOnly (s : State) : s.EpsOnly s.dropSessions :=
  UpdateClosed.forEps (P := s.EpsOnly) (f := fun i s => s.modEp i Endpoint.dropSession)
    (fun i t (e : t = { s with eps := t.eps }) => (congrArg (State.modEp · i Endpoint.dropSession) e :)) _ rfl

theorem State.dropSessions_ep (s : State) (i : EpIx) :
    s.dropSessions.ep i = if s.validEp i then (s.ep i).dropSession else s.ep i := by
  have dropped := State.forEps_ep (f := fun i s => s.modEp i Endpoint.dropSession) (R := fun _ e e' => e' = e.dropSession)
    (fun i s j hj => State.modEp_ep_other s i j _ hj) (fun i s => State.modEp_ep_same s i _) s.epList_nodup s i
  rw [State.mem_epList] at dropped
  split
  · next valid => exact dropped.2 valid
  · next invalid => exact dropped.1 invalid

/-- Settles O27: the five status writes are definitions, and a bus reset drops sessions. -/
theorem busEventsWriteOnlyTheirStatus : Obligations.BusEventsWriteOnlyTheirStatus := by
  intro f s
  have frame : f.setWidth 11 = f.extractLsb' 0 11 := by ext k hk; simp
  refine ⟨rfl, rfl, ?_, rfl, rfl, _, rfl, ?_, s.dropSessions_ep⟩
  · rw [← frame]; rfl
  · exact congrArg (fun t : State => { t with intPending := { t.intPending with busreset := true } }) s.dropSessions_epsOnly

/-! ### Endpoint stimuli (O28) -/

theorem State.atEp_of_valid (v : s.validEp i = true) (f : State → State) : s.atEp i f = f s := if_pos v

theorem State.atEp_of_invalid (v : s.validEp i = false) (f : State → State) : s.atEp i f = s := if_neg (by simp [v])

/-- `t` is `s` with endpoint `i` now `e` and events shown. -/
def State.EpWritten (s : State) (i : EpIx) (e : Endpoint) (t : State) : Prop :=
  t = { s with eps := t.eps, log := t.log } ∧ t.ep i = e ∧ ∀ j, j ≠ i → t.ep j = s.ep j

theorem State.epWritten_modEp (s : State) (i : EpIx) (f : Endpoint → Endpoint) :
    s.EpWritten i (f (s.ep i)) (s.modEp i f) :=
  ⟨rfl, State.modEp_ep_same s i f, fun j hj => State.modEp_ep_other s i j f hj⟩

theorem State.EpWritten.modEp {e : Endpoint} (w : s.EpWritten i e t) (f : Endpoint → Endpoint) :
    s.EpWritten i (f e) (t.modEp i f) := by
  obtain ⟨rest, ep, other⟩ := w
  refine ⟨?_, by rw [State.modEp_ep_same, ep], fun j hj => (State.modEp_ep_other t i j f hj).trans (other j hj)⟩
  exact congrArg (fun v : State => { v with eps := (t.modEp i f).eps }) rest

theorem Endpoint.sized_iff (e : Endpoint) : e.sized = true ↔ e.ctl.enable = true ∨ e.mps ≠ 0 := by simp [Endpoint.sized]

theorem Endpoint.holding_iff (e : Endpoint) : e.holding = true ↔ e.rxpend = true ∧ e.sta.rxrdy = true := by
  simp [Endpoint.holding]

/-- The state after the sent packet has left its bank. -/
def State.sentTx (s : State) (i : EpIx) : State := if (s.ep i).ctl.txpktrdy then s.sendTx i else s

theorem State.sentTx_written (s : State) (i : EpIx) : s.EpWritten i { s.ep i with
      ctl := { (s.ep i).ctl with txpktrdy := false }
      fifo := { (s.ep i).fifo with tx := if (s.ep i).ctl.txpktrdy then (s.ep i).fifo.tx.tail else (s.ep i).fifo.tx } }
    (s.sentTx i) := by
  unfold State.sentTx
  split
  · exact ⟨rfl, by simp, fun j hj => by simp [hj]⟩
  · next off =>
    have off : (s.ep i).ctl.txpktrdy = false := by simpa using off
    refine ⟨rfl, ?_, fun _ _ => rfl⟩
    rw [← off]

theorem State.sentTx_log (s : State) (i : EpIx) : (s.sentTx i).log =
    s.log ++ if (s.ep i).ctl.txpktrdy then [.sent i ((s.ep i).fifo.tx.headD [])] else [] := by
  unfold State.sentTx
  split
  · rfl
  · exact (List.append_nil _).symm

section
variable (bytes : List Byte)

theorem exec_busRxpkt_oversize (v : s.validEp i = true) (sized : (s.ep i).sized = true)
    (long : (s.ep i).mps.toNat < bytes.length) : exec (.busRxpkt i bytes) s = .refused .oversizePacket :=
  if_pos (by simp [v, sized, long])

theorem exec_busRxpkt_fits (fits : ¬(s.ep i).sized = true ∨ bytes.length ≤ (s.ep i).mps.toNat) :
    exec (.busRxpkt i bytes) s = if (s.ep i).holding then .next s else .next (s.atEp i fun s => s.modEp i fun e =>
      { e with
        sta := { e.sta with rxrdy := true, bytecnt := BitVec.ofNat 16 bytes.length }
        fifo := { e.fifo with rx := s.receivedWith i bytes } }) :=
  if_neg (by
    rcases fits with unsized | short
    · simp [unsized]
    · simp [Nat.not_lt.mpr short])

theorem exec_busRxpkt_invalid (v : s.validEp i = false) : exec (.busRxpkt i bytes) s = .next s := by
  show (if _ then _ else _) = _
  rw [if_neg (by simp [v]), State.atEp_of_invalid v]
  split <;> rfl

end

/-- Settles O28, by the stimulus. -/
theorem endpointStimuliWriteStatusAndBank : Obligations.EndpointStimuliWriteStatusAndBank := by
  intro i p bytes s e sized held only
  have fits : ¬sized ∨ bytes.length ≤ e.mps.toNat → ¬e.sized = true ∨ bytes.length ≤ e.mps.toNat :=
    Or.imp_left (mt e.sized_iff.mp)
  refine ⟨fun v => ⟨?setup, fun hs => exec_busRxpkt_oversize bytes v (e.sized_iff.mpr hs), ?keeps, ?arrives, ?txdone, ?stall⟩,
    fun v => ⟨?_, exec_busRxpkt_invalid bytes v, ?_, ?_⟩⟩
  case setup => exact ⟨_, congrArg Host.Outcome.next (State.atEp_of_valid v _), rfl, s.epWritten_modEp i _⟩
  case keeps => exact fun hf holds => (exec_busRxpkt_fits bytes (fits hf)).trans (if_pos (e.holding_iff.mpr holds))
  case arrives =>
    intro hf free
    have exec_ := (exec_busRxpkt_fits bytes (fits hf)).trans (if_neg (mt e.holding_iff.mp free))
    rw [State.atEp_of_valid v] at exec_
    exact ⟨_, exec_, rfl, s.epWritten_modEp i _⟩
  case txdone =>
    exact ⟨_, congrArg Host.Outcome.next (State.atEp_of_valid v _), s.sentTx_log i, (s.sentTx_written i).modEp _⟩
  case stall => exact ⟨_, congrArg Host.Outcome.next (State.atEp_of_valid v _), rfl, s.epWritten_modEp i _⟩
  all_goals exact congrArg Host.Outcome.next (State.atEp_of_invalid v _)

/-! ### DMA stimuli (O29) -/

theorem State.atChan_of_valid (v : s.validEp c = true) (d : s.hasDma c = true) (f : State → State) :
    s.atChan c f = (f s).setDmaPending c true := if_pos (by simp [v, d])

theorem State.atChan_of_invalid (h : s.validEp c = false ∨ s.hasDma c = false) (f : State → State) : s.atChan c f = s :=
  if_neg (by rcases h with h | h <;> simp [h])

/-- What the end of a slice of channel `c` can change: of memory the open slice, of the banks the received bytes and those
being sent, and nothing at all with no slice under way (R204). -/
structure State.SliceEnded (s : State) (c : EpIx) (t : State) : Prop where
  rest : t = { s with eps := t.eps, mem := t.mem, log := t.log, draws := t.draws }
  ep : t.ep c = { s.ep c with fifo := { (s.ep c).fifo with rx := (t.ep c).fifo.rx, fill := (t.ep c).fifo.fill } }
  other : ∀ j, j ≠ c → t.ep j = s.ep j
  memory : SameMemoryOutside (s.ep c).chan.addr (s.liveSlice c) s t
  left : RxLeft (s.liveSlice c) (s.ep c).fifo.rx (t.ep c).fifo.rx
  off : (s.ep c).chan.running = false → t = s

theorem State.SliceEnded.refl (s : State) (c : EpIx) : s.SliceEnded c s where
  rest := rfl
  ep := rfl
  other _ _ := rfl
  memory _ _ := rfl
  left := ⟨0, Nat.zero_le _, rfl⟩
  off _ := rfl

/-- An abandoned slice: nothing was sent, and of the received bytes an end stays. -/
theorem State.scrambleSlice_sliceEnded (s : State) (c : EpIx) : s.SliceEnded c (s.scrambleSlice c) ∧
    (s.scrambleSlice c).log = s.log ∧ ((s.scrambleSlice c).ep c).fifo.fill = (s.ep c).fifo.fill := by
  obtain ⟨rest, other, ep, left, memory, off⟩ := State.scrambleSlice_spec s c
  have fill : ((s.scrambleSlice c).ep c).fifo.fill = (s.ep c).fifo.fill := congrArg (·.fifo.fill) ep
  have log : (s.scrambleSlice c).log = s.log := (congrArg State.log rest :)
  refine ⟨⟨?_, ?_, other, memory, left, off⟩, log, fill⟩
  · rw [log]; exact rest
  · rw [fill]; exact ep

/-- `k` bytes of a slice of channel `c` have moved: of an IN slice to the host, and of an OUT slice from the received bytes to
memory (R204). -/
def State.Moved (s : State) (c : EpIx) (k : Nat) (t : State) : Prop :=
  let d := (s.ep c).chan
  let f := (s.ep c).fifo
  (s.isIn c = true → t.log = s.log ++ [.sent c (f.fill ++ readBytes s.mem d.addr k)] ∧ (t.ep c).fifo.fill = [] ∧
    (t.ep c).fifo.rx = f.rx) ∧
  (s.isIn c = false → t.log = s.log ∧ (t.ep c).fifo = { f with rx := f.rx.drop k } ∧
    (Memory.wf s.mem = true → k ≤ f.rx.length → readBytes t.mem d.addr k = f.rx.take k))

section
variable (running : (s.ep c).chan.running = true) (k : Nat)
include running

theorem State.moveSlice_in (dir : s.isIn c = true) :
    s.moveSlice c k = (s.fifoWrite c (readBytes s.mem (s.ep c).chan.addr k)).streamTx c := by
  simp [State.moveSlice, running, dir]

theorem State.moveSlice_out (dir : s.isIn c = false) :
    s.moveSlice c k = (s.fifoReadRx c k).2.memWrite (s.ep c).chan.addr (s.bankBytes (s.ep c).fifo.rx k) := by
  simp [State.moveSlice, State.fifoReadRx, running, dir]

theorem State.moveSlice_moved (small : k ≤ 2 ^ 32) : s.Moved c k (s.moveSlice c k) := by
  refine ⟨fun dir => ?_, fun dir => ?_⟩
  · rw [State.moveSlice_in running k dir]
    refine ⟨?_, by simp, by simp⟩
    show s.log ++ [.sent c ((s.fifoWrite c _).ep c).fifo.fill] = _
    simp
  · rw [State.moveSlice_out running k dir]
    refine ⟨rfl, by simp [State.fifoReadRx], fun wf held => ?_⟩
    have length : (s.bankBytes (s.ep c).fifo.rx k).length = k := State.bankBytes_length s _ k
    have stored := readBytes_writeBytes (s.bankBytes (s.ep c).fifo.rx k) s.mem (s.ep c).chan.addr wf (length.trans_le small)
    rw [length, State.bankBytes_of_le s _ k held] at stored
    rw [State.bankBytes_of_le s _ k held]
    exact stored
end

/-- Moving at most the count of a slice writes at most its open bytes. -/
theorem State.moveSlice_memory_slice {k : Nat} (hk : k ≤ (s.ep c).chan.count.toNat) :
    SameMemoryOutside (s.ep c).chan.addr (s.liveSlice c) s (s.moveSlice c k) := fun a ha =>
  State.moveSlice_memory s c k a fun n hn => ha n (by unfold State.liveSlice; split at hn <;> simp_all; omega)

theorem State.moveSlice_sliceEnded {k : Nat} (hk : k ≤ (s.ep c).chan.count.toNat) : s.SliceEnded c (s.moveSlice c k) := by
  have memory := State.moveSlice_memory_slice hk
  have other := ((EpFrame.start c s).moveSlice k).other
  cases running : (s.ep c).chan.running with
  | false =>
    have still : s.moveSlice c k = s := by simp [State.moveSlice, running]
    rw [still]
    exact .refl s c
  | true =>
    cases dir : s.isIn c with
    | true =>
      rw [State.moveSlice_in running k dir] at memory other ⊢
      exact ⟨rfl, by simp, other, memory, ⟨0, Nat.zero_le _, by simp⟩, by simp [running]⟩
    | false =>
      rw [State.moveSlice_out running k dir] at memory other ⊢
      have live : s.liveSlice c = (s.ep c).chan.count.toNat := by simp [State.liveSlice, running, dir]
      exact ⟨rfl, by simp [State.fifoReadRx], other, memory, ⟨k, live ▸ hk, by simp [State.fifoReadRx]⟩, by simp [running]⟩

/-! The report of a channel's status, after its slice has ended. -/

/-- Channel `c` reports the status `f` writes, and its interrupt is pending (R97, R204). -/
def State.report (s : State) (c : EpIx) (f : DmaChan → DmaChan) : State := (s.modChan c f).setDmaPending c true

theorem State.report_pending (s : State) (c : EpIx) (f : DmaChan → DmaChan) (k : EpIx) :
    (s.report c f).intPending.dma.getLsbD k.val = (decide (k = c) || s.intPending.dma.getLsbD k.val) := by
  show (s.intPending.dma ||| BitVec.twoPow 16 c.val).getLsbD k.val = _
  by_cases hk : k = c
  · subst hk; simp
  · have hk' : k.val ≠ c.val := fun e => hk (Fin.ext e)
    simp [hk, hk']

theorem State.report_ep (s : State) (c : EpIx) (f : DmaChan → DmaChan) (j : EpIx) :
    (s.report c f).ep j = if j = c then { s.ep c with chan := f (s.ep c).chan } else s.ep j := State.modChan_ep s c j f

/-- What `DmaStimuliReportTheirStatus` says of each report: the channel is `d'` with its slice ended. -/
def State.Reported (s : State) (c : EpIx) (d' : DmaChan) (t : State) : Prop :=
  t = { s with
    eps := t.eps, mem := t.mem, log := t.log, draws := t.draws
    intPending := { s.intPending with dma := t.intPending.dma } } ∧
  t.ep c = { s.ep c with
    chan := { d' with running := false }
    fifo := { (s.ep c).fifo with rx := (t.ep c).fifo.rx, fill := (t.ep c).fifo.fill } } ∧
  (∀ j, j ≠ c → t.ep j = s.ep j) ∧
  (∀ k : EpIx, t.intPending.dma.getLsbD k.val = (decide (k = c) || s.intPending.dma.getLsbD k.val)) ∧
  SameMemoryOutside (s.ep c).chan.addr (s.liveSlice c) s t ∧
  RxLeft (s.liveSlice c) (s.ep c).fifo.rx (t.ep c).fifo.rx ∧
  ((s.ep c).chan.running = false → t.log = s.log ∧ (t.ep c).fifo = (s.ep c).fifo)

theorem State.SliceEnded.report {d' : DmaChan} {f : DmaChan → DmaChan} (e : s.SliceEnded c u)
    (hf : f (s.ep c).chan = { d' with running := false }) : s.Reported c d' (u.report c f) := by
  have chan : (u.ep c).chan = (s.ep c).chan := (congrArg Endpoint.chan e.ep :)
  have ep : (u.report c f).ep c = { u.ep c with chan := { d' with running := false } } := by
    rw [State.report_ep, if_pos rfl, chan, hf]
  have pending : u.intPending = s.intPending := (congrArg State.intPending e.rest :)
  refine ⟨?_, ?_, fun j hj => ?_, fun k => ?_, e.memory, ?_, fun off => ?_⟩
  · exact congrArg (fun v : State => { v with
      eps := (u.report c f).eps
      intPending := { v.intPending with dma := (u.report c f).intPending.dma } }) e.rest
  · rw [ep, e.ep]
  · rw [State.report_ep, if_neg hj, e.other j hj]
  · rw [State.report_pending, pending]
  · rw [ep]; exact e.left
  · have still := e.off off
    subst still
    exact ⟨rfl, by rw [ep]⟩

theorem State.Moved.report {k : Nat} (m : s.Moved c k u) (f : DmaChan → DmaChan) : s.Moved c k (u.report c f) := by
  have fifo : ((u.report c f).ep c).fifo = (u.ep c).fifo := by rw [State.report_ep, if_pos rfl]
  unfold State.Moved at m ⊢
  rw [fifo]
  exact m

theorem exec_busDmaEob (v : s.validEp c = true) (hd : s.hasDma c = true) (rem : BitVec 16) :
    exec (.busDmaEob c rem) s = .next ((if rem ≤ (s.ep c).chan.count then
        s.moveSlice c ((s.ep c).chan.count - rem).toNat else s.scrambleSlice c).report c
      fun d => { d with eob := true, remcount := rem, running := false }) :=
  congrArg Host.Outcome.next (State.atChan_of_valid v hd _)

theorem exec_busDmaEoc (v : s.validEp c = true) (hd : s.hasDma c = true) :
    exec (.busDmaEoc c) s = .next ((s.moveSlice c (s.ep c).chan.count.toNat).report c
      fun d => { d with eoc := true, remcount := 0, running := false }) :=
  congrArg Host.Outcome.next (State.atChan_of_valid v hd _)

theorem exec_busDmaErr (v : s.validEp c = true) (hd : s.hasDma c = true) :
    exec (.busDmaErr c) s = .next ((s.scrambleSlice c).report c fun d => { d with err := true, running := false }) :=
  congrArg Host.Outcome.next (State.atChan_of_valid v hd _)

/-- Settles O29, by the report. -/
theorem dmaStimuliReportTheirStatus : Obligations.DmaStimuliReportTheirStatus := by
  intro c rem s d f only moved
  obtain ⟨scrambled, log, fill⟩ := s.scrambleSlice_sliceEnded c
  have short : ∀ n : Len, n.toNat ≤ 2 ^ 32 := fun n => n.isLt.le.trans (by decide)
  refine ⟨fun v hd => ⟨?eob, ?eoc, ?err⟩, fun out => ⟨?_, ?_, ?_⟩⟩
  case eob =>
    have exec_ := exec_busDmaEob v hd rem
    by_cases fits : rem ≤ d.count
    · have count : (d.count - rem).toNat = d.count.toNat - rem.toNat := BitVec.toNat_sub_of_le fits
      rw [if_pos fits] at exec_
      refine ⟨_, exec_, (State.moveSlice_sliceEnded (count.trans_le (Nat.sub_le _ _))).report rfl, fun _ running => ?_⟩
      rw [← count]
      exact (State.moveSlice_moved running _ (short _)).report _
    · rw [if_neg fits] at exec_
      exact ⟨_, exec_, scrambled.report rfl, fun hle => absurd hle fits⟩
  case eoc =>
    exact ⟨_, exec_busDmaEoc v hd, (State.moveSlice_sliceEnded le_rfl).report rfl,
      fun running => (State.moveSlice_moved running _ (short _)).report _⟩
  case err =>
    refine ⟨_, exec_busDmaErr v hd, scrambled.report rfl, log, ?_⟩
    rw [State.report_ep, if_pos rfl]
    exact fill
  all_goals exact congrArg Host.Outcome.next (State.atChan_of_invalid out _)

end Sys2Proof.Machine
end

section
/-! SUPPORT. The interrupt of one endpoint (O43): its sample, the three bits before SETUP, and the SETUP status. -/

namespace Sys2Proof.Machine

variable {s : State} {i : EpIx}

/-- The interrupt of endpoint `i` before it looks at the SETUP bit of its sample (R308, R309). -/
def State.beforeSetup (s : State) (i : EpIx) : State :=
  let t := (s.ep i).enabledSta
  let s1 := if t.txdone then (s.ackTxdone i).txDone i else s
  let s2 := if t.rxrdy then s1.rxReady i else s1
  if t.stallsent then (s2.ackStallsent i).stallSent i else s2

theorem State.handle_ep (s : State) (i : EpIx) :
    s.handle (.ep i) = if (s.ep i).enabledSta.setup then (s.beforeSetup i).setupStatus i else s.beforeSetup i := rfl

/-- The SETUP bank of an endpoint other than EP0 is discarded and acknowledged (R308). -/
theorem State.setupStatus_other (s : State) (h : i ≠ 0) : s.setupStatus i = s.modEp i fun x => { x with
      sta := { x.sta with setup := false }
      fifo := { x.fifo with setup := x.fifo.setup.drop x.sta.bytecnt.toNat } } := by
  rw [State.setupStatus, if_neg h, State.discardSetup, State.ackSetup, State.modSta, State.modEp_modEp]
  exact State.modEp_congr rfl

/-- A SETUP bank that does not hold eight bytes stalls EP0 (R108, R230). -/
theorem State.setupReceived_stalls (enabled : (s.ep 0).state ≠ .disabled) (count : (s.ep 0).sta.bytecnt ≠ 8) :
    (s.setupReceived.ep 0).state = .stalled := by
  rw [State.setupReceived, if_neg enabled, if_pos count]
  exact State.stallEp_state (by simpa using enabled)

/-- Settles O43, by the SETUP bit of the sample. -/
theorem endpointInterruptHandlesItsSample : Obligations.EndpointInterruptHandlesItsSample := by
  intro i s e a b c
  have handled : s.handle (.ep i) = if e.setup then c.setupStatus i else c := s.handle_ep i
  refine ⟨fun off => ?_, fun on h => ?_, fun on h => ?_⟩
  · rw [handled, if_neg (by simp [off])]
  · rw [handled, if_pos on, State.setupStatus_other c h]
  · rw [handled, if_pos on, State.setupStatus, if_pos h]
    exact ⟨rfl, State.setupReceived_stalls⟩

end Sys2Proof.Machine
end

section
/-! SUPPORT. A SETUP request with no OUT data (O32, O36): what EP0's SETUP stage leaves, the final actions from there, and the
requests that end in one of them. -/

namespace Sys2Proof.Machine

variable {s t u v : State} {p : SetupPacket}

/-! ### The SETUP stage -/

/-- EP0 has taken the packet `p` from its SETUP bank and is `Idle`, with the request still to run (R230). -/
def State.afterSetup (s : State) (p : SetupPacket) : State := (s.discardSetup 0 8).setupIdle p

/-- The eight bytes have left the bank and are the request under way (R230). -/
def State.tookSetup (s : State) (p : SetupPacket) : State :=
  ((s.discardSetup 0 8).modDev fun d => { d with ctrl := p }).ackSetup 0

theorem State.tookSetup_queue (s : State) (p : SetupPacket) : ((s.tookSetup p).ep 0).queue = (s.ep 0).queue := by
  simp [State.tookSetup]

/-- Once EP0's requests are completed, the rest of what the previous transfer left is dropped (R230). -/
def State.dropTransfer (s : State) : State :=
  (((s.modEp 0 fun e => { e with txnullpkt := false }).withdrawTx 0).modDev
    fun d => { d with scratchCount := 0, pendingAddr := 0 }).modEp 0 (Endpoint.unstalled .idle)

theorem State.afterSetup_eq (s : State) (p : SetupPacket) :
    s.afterSetup p = ((s.tookSetup p).drain 0 .ok).dropTransfer := rfl

/-- `u` is `s` with EP0's SETUP stage for the packet `p` over and the request still to run. -/
structure SetupDone (p : SetupPacket) (s u : State) : Prop where
  ep : u.ep 0 = ep0After (s.ep 0) .idle none
  frame : SetupFrame p 0 [] s u

theorem State.afterSetup_done (s : State) (p : SetupPacket) : SetupDone p s (s.afterSetup p) where
  ep := by simp [State.afterSetup, State.setupIdle, State.setupEnd_ep_same, Endpoint.unstalled, ep0After]
  frame := by
    obtain ⟨-, other, calls, requests, handles, rest⟩ := State.drain_spec (s.tookSetup p) 0 .ok
    rw [State.tookSetup_queue] at calls requests
    rw [State.afterSetup_eq]
    generalize (s.tookSetup p).drain 0 .ok = u at *
    refine ⟨?_, fun j hj => ?_, handles, requests⟩
    · rw [calls] at rest
      rw [List.append_nil]
      exact congrArg State.dropTransfer rest
    · have dropped : u.dropTransfer.ep j = u.ep j := by simp [State.dropTransfer, hj]
      have taken : (s.tookSetup p).ep j = s.ep j := by simp [State.tookSetup, hj]
      rw [dropped, other j hj, taken]

/-- A SETUP instruction that announces no OUT data runs its request once EP0's SETUP stage is over. -/
theorem State.receiveSetup_eq (enabled : (s.ep 0).state ≠ .disabled) {t : BitVec 2} {code : Byte} {a : SetupArgs}
    (noData : outData a = false) (rule : Option (List Byte) → State → State × Ep0Outcome) :
    s.receiveSetup (packSetup t code a) rule = (s.afterSetup (packSetup t code a)).runRequest rule none := by
  have none : ¬((packSetup t code a).dirIn = false ∧ (packSetup t code a).length ≠ 0) := by
    simpa [outData] using noData
  rw [State.receiveSetup, if_neg enabled, State.setupAccept_eq, if_neg none]
  rfl

section
variable (done : SetupDone p s u)
include done

theorem SetupDone.dev : u.dev = { s.dev with ctrl := p, scratchCount := 0, pendingAddr := 0 } :=
  (congrArg State.dev done.frame.rest :)

theorem SetupDone.cfg : u.cfg = s.cfg := (congrArg State.cfg done.frame.rest :)

theorem SetupDone.ctrl : u.dev.ctrl = p := by rw [done.dev]

theorem SetupDone.idle : (u.ep 0).state = .idle := by rw [done.ep]; rfl

end

/-! ### Final actions (R258) -/

/-- EP0's record may change after the SETUP stage. -/
theorem SetupFrame.ep0 {pending : BitVec 7} {more : List Callback} (f : SetupFrame p pending more s u)
    (rest : t = { u with eps := t.eps }) (other : ∀ j, j ≠ 0 → t.ep j = u.ep j) : SetupFrame p pending more s t where
  rest := by
    have reqs : t.reqs = u.reqs := (congrArg State.reqs rest :)
    rw [reqs]
    exact rest.trans (congrArg (fun v : State => { v with eps := t.eps }) f.rest)
  other j hj := (other j hj).trans (f.other j hj)
  handles := by rw [rest]; exact f.handles
  requests h := by rw [rest]; exact f.requests h

/-- A callback joins the list after the SETUP stage. -/
theorem SetupFrame.callback {pending : BitVec 7} (f : SetupFrame p pending [] s u) (c : Callback) :
    SetupFrame p pending [c] s (u.callback c) where
  rest := by
    refine (congrArg (State.callback · c) f.rest).trans ?_
    rw [List.append_nil]
    rfl
  other := f.other
  handles := f.handles
  requests := f.requests

theorem SetupDone.answers (done : SetupDone p s u) (resp : List Byte) : Answers p resp s (u.ep0Finish p (.success resp)) := by
  refine ⟨?_, done.frame.ep0 rfl fun j hj => ?_⟩
  · simp [State.ep0Finish, done.ep, ep0After, Fifo.hand]
  · simp [State.ep0Finish, hj]

theorem SetupDone.stalls (done : SetupDone p s u) : Stalls p s (u.ep0Finish p .stall) := by
  have idle := done.idle
  have frozen : u.ep0Finish p .stall = u.freezeEp 0 :=
    State.stallEp_still (State.not_moving_of_state idle nofun nofun) (by rw [idle]; nofun) (by rw [idle]; nofun)
  have forgot : u.forgetEp0 0 = u := by
    have dev : { u.dev with scratchCount := 0, pendingAddr := 0 } = u.dev := by rw [done.dev]
    exact congrArg (fun d => { u with dev := d }) dev
  rw [frozen]
  refine ⟨?_, done.frame.ep0 ?_ fun j hj => ?_⟩
  · rw [State.freezeEp_ep, if_pos rfl, done.ep]; rfl
  · rw [State.freezeEp, forgot]; rfl
  · rw [State.freezeEp_ep, if_neg hj]

/-! ### Requests by their outcome -/

section
variable {rule : Option (List Byte) → State → State × Ep0Outcome} (done : SetupDone p s u)
include done

theorem SetupDone.run_success {resp : List Byte} (h : rule none u = (u, .success resp)) :
    Answers p resp s (u.runRequest rule none) := by
  rw [State.runRequest, h, done.ctrl]
  exact done.answers resp

theorem SetupDone.run_stall (h : rule none u = (u, .stall)) : Stalls p s (u.runRequest rule none) := by
  rw [State.runRequest, h, done.ctrl]
  exact done.stalls

theorem SetupDone.run_forward (h : rule none u = u.forward none) : Forwards p s (u.runRequest rule none) := by
  have driver : u.dev.driver = s.dev.driver := by rw [done.dev]
  unfold Forwards
  split
  · next unbound => exact done.run_stall (h.trans (if_pos (driver.trans unbound)))
  · next bound =>
    have forwarded : rule none u = (u.callback (.onSetup p none), .dispatched) := by
      rw [h, State.forward, driver, if_neg bound, done.ctrl]
    rw [State.runRequest, forwarded]
    exact ⟨done.ep, done.frame.callback _⟩

end

/-! ### Instructions -/

section
variable {i : Instr} {t : BitVec 2} {code : Byte} {a : SetupArgs}
  {rule : Option (List Byte) → State → State × Ep0Outcome}

/-- A SETUP instruction `i` with no OUT data runs its rule after the SETUP stage of its own packet (R230). -/
theorem exec_setup_runs (meaning : exec i s = .next (s.receiveSetup (packSetup t code a) rule))
    (encoding : encode i = encodeSetup t code a) (enabled : (s.ep 0).state ≠ .disabled) (noData : outData a = false) :
    setupOf i = packSetup t code a ∧
      ∃ u, SetupDone (setupOf i) s u ∧ exec i s = .next (u.runRequest rule none) := by
  have packet : setupOf i = packSetup t code a :=
    (congrArg packetOfBytes encoding).trans (packetOfBytes_encodeSetup t code a)
  refine ⟨packet, _, s.afterSetup_done (setupOf i), ?_⟩
  rw [meaning, packet, State.receiveSetup_eq enabled noData]

/-- A request that the class driver answers when its checks `good` hold, and that stalls otherwise (R236). -/
theorem exec_forwards_or_stalls {good : Prop} [Decidable good]
    (meaning : exec i s = .next (s.receiveSetup (packSetup t code a) rule)) (encoding : encode i = encodeSetup t code a)
    (enabled : (s.ep 0).state ≠ .disabled) (noData : outData a = false)
    (checks : ∀ u : State, u.dev.ctrl = packSetup t code a →
      rule none u = if good then u.forward none else (u, .stall)) :
    ∃ t, exec i s = .next t ∧ (good → Forwards (setupOf i) s t) ∧ (¬good → Stalls (setupOf i) s t) := by
  obtain ⟨packet, u, done, runs⟩ := exec_setup_runs meaning encoding enabled noData
  have ruled := checks u (done.ctrl.trans packet)
  exact ⟨_, runs, fun g => done.run_forward (ruled.trans (if_pos g)), fun g => done.run_stall (ruled.trans (if_neg g))⟩

end

/-- Settles O36, request by request. -/
theorem otherRequestsForwardAnswerOrStall : Obligations.OtherRequestsForwardAnswerOrStall := by
  intro a code s enabled noData does
  refine ⟨?_, ?_, ?_, ?_, ?_, ?_, ?_, ?_, ?_, ?_, ?synch⟩
  case synch =>
    obtain ⟨-, u, done, runs⟩ := exec_setup_runs (i := .setupSynchFrame a) rfl rfl enabled noData
    exact ⟨_, runs, done.run_success rfl⟩
  · exact exec_forwards_or_stalls rfl rfl enabled noData fun u h => by simp [reqGetDescriptor, h, recipDevice]
  · exact exec_forwards_or_stalls rfl rfl enabled noData fun u h => by simp [reqSetDescriptor, h, recipDevice]
  · exact exec_forwards_or_stalls rfl rfl enabled noData fun u h => by simp [reqGetConfiguration, h, recipDevice]
  · exact exec_forwards_or_stalls rfl rfl enabled noData fun u h => by simp [reqSetConfiguration, h, recipDevice]
  · exact exec_forwards_or_stalls rfl rfl enabled noData fun u _ => (if_pos trivial).symm
  · exact exec_forwards_or_stalls rfl rfl enabled noData fun u _ => (if_pos trivial).symm
  · exact exec_forwards_or_stalls rfl rfl enabled noData fun u _ => (if_pos trivial).symm
  · exact exec_forwards_or_stalls rfl rfl enabled noData fun u _ => (if_pos trivial).symm
  · exact exec_forwards_or_stalls rfl rfl enabled noData fun u _ => (if_pos trivial).symm
  · exact exec_forwards_or_stalls rfl rfl enabled noData fun u _ => (if_neg id).symm

/-! ### GET_STATUS (O32) -/

section
variable {index : BitVec 16}

theorem State.targetEp_of_valid {k : EpIx} (hk : k.val = (index.extractLsb' 0 8).toNat) (v : s.validEp k = true) :
    s.targetEp index = some k := by
  have exists_ : (index.extractLsb' 0 8).toNat < s.cfg.numEp := by simpa [State.validEp, hk] using v
  rw [State.targetEp]
  rw [dif_pos (hk ▸ k.isLt), if_pos exists_]
  exact congrArg some (Fin.ext hk.symm)

theorem State.targetEp_of_invalid (h : ∀ k : EpIx, k.val = (index.extractLsb' 0 8).toNat → s.validEp k = false) :
    s.targetEp index = none := by
  rw [State.targetEp]
  split
  · next small =>
    have absent := h ⟨_, small⟩ rfl
    exact if_neg (by simpa [State.validEp] using absent)
  · rfl

end

/-- A status byte as the request's answer holds it. -/
theorem statusBytes_eq (b c : Bool) :
    statusBytes b c = [(if b then (1 : Byte) else 0) ||| ((if c then (1 : Byte) else 0) <<< 1), 0] := by
  cases b <;> cases c <;> rfl

theorem statusBytes_one (b : Bool) : statusBytes b false = [if b then (1 : Byte) else 0, 0] := by cases b <;> rfl

/-- The checks of GET_STATUS (R242). -/
def asksStatus (p : SetupPacket) : Prop :=
  p.length = 2 ∧ p.dirIn = true ∧ p.index.extractLsb' 8 8 = 0 ∧ p.value = 0

theorem reqGetStatus_of_not_asks (out : Option (List Byte)) (h : ¬asksStatus u.dev.ctrl) :
    reqGetStatus out u = (u, .stall) := by
  refine if_pos ?_
  by_contra none
  simp only [not_or, ne_eq, not_not, Bool.not_eq_false] at none
  exact h none

section
variable (out : Option (List Byte)) (asks : asksStatus u.dev.ctrl)
include asks

/-- With the checks passed the recipient decides. -/
theorem reqGetStatus_of_asks :
    (u.dev.ctrl.recip = 0 → reqGetStatus out u = (u, .success (statusBytes u.dev.selfpowered u.dev.rwake))) ∧
    (u.dev.ctrl.recip = 1 → reqGetStatus out u = (u, .success (statusBytes false false))) ∧
    (∀ k, u.dev.ctrl.recip = 2 → u.targetEp u.dev.ctrl.index = some k →
      reqGetStatus out u = (u, .success (statusBytes (u.ep k).stalled false))) ∧
    (u.dev.ctrl.recip = 2 → u.targetEp u.dev.ctrl.index = none → reqGetStatus out u = (u, .stall)) ∧
    (u.dev.ctrl.recip ≠ 0 → u.dev.ctrl.recip ≠ 1 → u.dev.ctrl.recip ≠ 2 → reqGetStatus out u = (u, .stall)) := by
  obtain ⟨length, dir, high, value⟩ := asks
  unfold reqGetStatus recipDevice recipEndpoint recipInterface
  simp +contextual [length, dir, high, value]
end

/-- Settles O32, by the recipient. -/
theorem getStatusAnswersTwoBytes : Obligations.GetStatusAnswersTwoBytes := by
  intro a s enabled noData p good bit e
  obtain ⟨packet, u, done, runs⟩ := exec_setup_runs (i := .setupGetStatus a) rfl rfl enabled noData
  have ctrl : u.dev.ctrl = packSetup 0 0x00 a := done.ctrl.trans packet
  have asks : asksStatus u.dev.ctrl ↔ good := by
    rw [ctrl]
    simp only [asksStatus, packSetup_length, packSetup_dirIn, packSetup_index, packSetup_value, good]
  have recip : u.dev.ctrl.recip = a.recip := by rw [ctrl, packSetup_recip]
  have index : u.dev.ctrl.index = a.index := by rw [ctrl, packSetup_index]
  have passed := fun ok : good => reqGetStatus_of_asks none (asks.mpr ok)
  rw [recip, index] at passed
  refine ⟨_, runs, fun bad => done.run_stall (reqGetStatus_of_not_asks none (mt asks.mp bad)), fun ok device => ?_,
    fun ok interface => ?_, fun ok endpoint k hk valid => ?_, fun ok endpoint absent => ?_, fun ok n0 n1 n2 => ?_⟩
  all_goals obtain ⟨toDevice, toInterface, toEndpoint, noEndpoint, toOther⟩ := passed ok
  · have answer := done.run_success (toDevice device)
    rw [done.dev, statusBytes_eq] at answer
    exact answer
  · exact done.run_success (toInterface interface)
  · have answer := done.run_success (toEndpoint k endpoint
      (State.targetEp_of_valid hk ((State.validEp_congr done.cfg k).trans valid)))
    have stalled : (u.ep k).stalled = if k = 0 then (ep0After (s.ep 0) .idle none).stalled else (s.ep k).stalled := by
      split
      · next h0 => rw [h0, done.ep]
      · next h0 => rw [done.frame.other k h0]
    rw [stalled, statusBytes_one] at answer
    exact answer
  · exact done.run_stall (noEndpoint endpoint
      (State.targetEp_of_invalid fun k hk => (State.validEp_congr done.cfg k).trans (absent k hk)))
  · exact done.run_stall (toOther n0 n1 n2)

end Sys2Proof.Machine
end

section
/-! SUPPORT. The feature requests of an endpoint (O33, O34): what an operation on one endpoint can write of the machine, and the
answer of EP0 after it (`FeatureFrame`). -/

namespace Sys2Proof.Machine

variable {s t u v w : State} {p : SetupPacket} {i k : EpIx}

/-! ### What an operation on one endpoint can write -/

/-- `s` with the fields of `t` that an operation on an endpoint other than EP0 can change. -/
def State.operatedAs (s t : State) : State :=
  { s with
    eps := t.eps, reqs := t.reqs, cbList := t.cbList, mem := t.mem, log := t.log, draws := t.draws
    intPending := { s.intPending with dma := t.intPending.dma }
    dev := { s.dev with rxpending := t.dev.rxpending } }

/-- Nothing else differs. -/
def State.OpFrame (s t : State) : Prop := t = s.operatedAs t

theorem State.OpFrame.trans (a : s.OpFrame t) (b : t.OpFrame u) : s.OpFrame u :=
  calc u = t.operatedAs u := b
    _ = (s.operatedAs t).operatedAs u := congrArg (State.operatedAs · u) a

theorem State.ShutFrame.opFrame (a : s.ShutFrame t) : s.OpFrame t := by
  have shut := a.eq
  unfold State.OpFrame
  rw [shut]
  rfl

theorem State.complete_opFrame (s : State) (i : EpIx) (r : Result) : s.OpFrame (s.complete i r) := by
  unfold State.complete
  split <;> rfl

theorem State.dmaSlice_opFrame (s : State) (i : EpIx) : s.OpFrame (s.dmaSlice i) := by
  unfold State.dmaSlice
  split
  · rfl
  · dsimp only
    split <;> rfl

theorem dmaStartLoop_opFrame (n : Nat) (s : State) : s.OpFrame (dmaStartLoop i n s) := by
  induction n generalizing s with
  | zero => rfl
  | succ n ih =>
    unfold dmaStartLoop
    split
    · rfl
    · split
      · split
        · rfl
        · have idle : (s.complete i .ok).OpFrame ((s.complete i .ok).setEpState i .idle) := rfl
          exact ((s.complete_opFrame i .ok).trans idle).trans (ih _)
      · have moving : s.OpFrame (s.setEpState i (if s.isIn i then .sending else .receiving)) := rfl
        exact moving.trans (State.dmaSlice_opFrame _ i)

theorem State.oweZlp_opFrame (s : State) (i : EpIx) (h : Ref) : s.OpFrame (s.oweZlp i h) := by
  unfold State.oweZlp
  split <;> rfl

theorem writeLoop_opFrame (n : Nat) (s : State) : s.OpFrame (writeLoop i n s) := by
  induction n generalizing s with
  | zero => rfl
  | succ n ih =>
    unfold writeLoop
    split
    · rfl
    · next h _ =>
      dsimp only
      have counted : s.OpFrame (s.countSent h) := rfl
      have owed := counted.trans (State.oweZlp_opFrame (s.countSent h) i h)
      generalize (s.countSent h).oweZlp i h = u at owed ⊢
      split
      · have sent : u.OpFrame (u.sendPacket i h) := rfl
        exact owed.trans sent
      · exact (owed.trans (u.complete_opFrame i .ok)).trans (ih _)

theorem State.readBank_opFrame (s : State) (i : EpIx) (h : Ref) : s.OpFrame (s.readBank i h) := rfl

theorem readLoop_opFrame (n : Nat) (s : State) : s.OpFrame (readLoop i n s) := by
  induction n generalizing s with
  | zero => rfl
  | succ n ih =>
    unfold readLoop
    split
    · rfl
    · next h _ =>
      split
      · exact (s.complete_opFrame i .ok).trans (ih _)
      · dsimp only
        split
        · have taken : s.OpFrame (s.takeHeld i) := rfl
          have read := taken.trans ((s.takeHeld i).readBank_opFrame i h)
          unfold State.takeHeld at read
          split
          · have idle : ∀ v : State, v.OpFrame (v.setEpState i .idle) := fun _ => rfl
            exact ((read.trans (State.complete_opFrame _ i .ok)).trans (idle _)).trans (ih _)
          · exact read
        · rfl

theorem State.startTransfer_opFrame (s : State) (i : EpIx) : s.OpFrame (s.startTransfer i) := by
  unfold State.startTransfer State.dmaStart
  split
  · rfl
  · split
    · split
      · rfl
      · exact dmaStartLoop_opFrame _ s
    · split
      · exact writeLoop_opFrame _ s
      · exact readLoop_opFrame _ s

theorem State.forgetEp0_of_ne (h : i ≠ 0) : s.forgetEp0 i = s := if_neg h

theorem State.freezeEp_opFrame (h : i ≠ 0) : s.OpFrame (s.freezeEp i) := by
  rw [State.freezeEp, State.forgetEp0_of_ne h]
  rfl

theorem State.stallEp_opFrame (h : i ≠ 0) : s.OpFrame (s.stallEp i) := by
  by_cases off : (s.ep i).state = .disabled ∨ (s.ep i).state = .stalled
  · rw [State.stallEp_off off]; rfl
  · rw [not_or] at off
    cases moving : s.moving i with
    | true =>
      rw [State.stallEp_moving moving]
      have dropped := (s.dmaStopIfBusy_spec i).1.trans (State.dropInflight_frame _ i)
      exact (dropped.opFrame.trans (State.complete_opFrame _ i _)).trans (State.freezeEp_opFrame h)
    | false =>
      rw [State.stallEp_still moving off.1 off.2]
      exact State.freezeEp_opFrame h

/-! ### The answer after the operation -/

/-- EP0 answers a zero-length packet, and no other endpoint notices. -/
theorem State.acknowledge_ep (w : State) (p : SetupPacket) (k : EpIx) (hk : k ≠ 0) :
    (w.ep0Finish p (.success [])).ep k = w.ep k := by simp [State.ep0Finish, hk]

/-- After an operation on endpoint `k` EP0 answers, and the rest is as `FeatureFrame` says. -/
theorem SetupDone.feature (done : SetupDone p s u) (hk : k ≠ 0) (op : EpFrame k (s.ep k).queue u w) (frame : u.OpFrame w) :
    FeatureFrame p k s (w.ep0Finish p (.success [])) where
  ep0 := by
    have ep : w.ep 0 = ep0After (s.ep 0) .idle none := (op.other 0 hk.symm).trans done.ep
    simp [State.ep0Finish, ep, ep0After, Fifo.hand]
  other j h0 hj := (w.acknowledge_ep p j h0).trans ((op.other j hj).trans (done.frame.other j h0))
  rest := (congrArg (fun v : State => { v with eps := (w.ep0Finish p (.success [])).eps }) frame :).trans
    (congrArg (fun v : State => { v.operatedAs w with eps := (w.ep0Finish p (.success [])).eps }) done.frame.rest)
  dmaBits c hc := (op.dmaBits c hc).trans (congrArg (·.intPending.dma.getLsbD c.val) done.frame.rest :)
  handles := op.handles.trans done.frame.handles
  requests h h0 hh := (op.requests h hh).trans ((done.frame.requests h).trans (if_neg fun q => h0 q.1))
  callbacks := by
    obtain ⟨new, calls, of⟩ := op.callbacks
    refine ⟨new, ?_, of⟩
    have before := congrArg State.cbList done.frame.rest
    rw [List.append_nil] at before
    exact calls.trans (congrArg (· ++ new) before)

/-! ### The feature requests (R245, R246) -/

/-- The requests CLEAR_FEATURE and SET_FEATURE, which differ in the action `act` on the endpoint. -/
def featureRule (act : State → EpIx → State) (out : Option (List Byte)) (s : State) : State × Ep0Outcome :=
  let p := s.dev.ctrl
  if p.recip = recipEndpoint then
    match s.featureTarget p with
    | none => (s, .stall)
    | some k => (act s k, .success [])
  else if p.recip = recipDevice ∧ p.value = featTestMode then (s, .success [])
  else s.forward out

theorem reqClearFeature_eq : reqClearFeature = featureRule State.resumeEp := rfl

theorem reqSetFeature_eq : reqSetFeature = featureRule State.haltEp := rfl

section
variable {act : State → EpIx → State} {out : Option (List Byte)}

theorem featureRule_endpoint (recip : u.dev.ctrl.recip = 2) {k : EpIx} (target : u.featureTarget u.dev.ctrl = some k) :
    featureRule act out u = (act u k, .success []) := by
  simp [featureRule, recip, recipEndpoint, target]

theorem featureRule_no_endpoint (recip : u.dev.ctrl.recip = 2) (target : u.featureTarget u.dev.ctrl = none) :
    featureRule act out u = (u, .stall) := by
  simp [featureRule, recip, recipEndpoint, target]

theorem featureRule_testMode (recip : u.dev.ctrl.recip = 0) (value : u.dev.ctrl.value = 2) :
    featureRule act out u = (u, .success []) := by
  simp [featureRule, recip, recipEndpoint, recipDevice, value, featTestMode]

theorem featureRule_other (recip : u.dev.ctrl.recip ≠ 2) (other : ¬(u.dev.ctrl.recip = 0 ∧ u.dev.ctrl.value = 2)) :
    featureRule act out u = u.forward out :=
  (if_neg recip).trans (if_neg other)

end

/-- The endpoint that a feature request with these arguments names, if any (R87). -/
theorem State.featureTarget_some {k : EpIx} (value : p.value = 0) (length : p.length = 0)
    (hk : k.val = (p.index.extractLsb' 0 8).toNat) (valid : s.validEp k = true) : s.featureTarget p = some k :=
  (if_pos ⟨value, length⟩).trans (State.targetEp_of_valid hk valid)

theorem State.featureTarget_none (bad : p.value ≠ 0 ∨ p.length ≠ 0 ∨
    ∀ k : EpIx, k.val = (p.index.extractLsb' 0 8).toNat → s.validEp k = false) : s.featureTarget p = none := by
  unfold State.featureTarget
  split
  · next halt =>
    obtain value | length | absent := bad
    · exact absurd halt.1 value
    · exact absurd halt.2 length
    · exact State.targetEp_of_invalid absent
  · rfl

/-- What a feature request with no OUT data does; `act` is left to say for the endpoint named. -/
theorem exec_feature {i : Instr} {code : Byte} {a : SetupArgs} {act : State → EpIx → State}
    (meaning : exec i s = .next (s.receiveSetup (packSetup 0 code a) (featureRule act)))
    (encoding : encode i = encodeSetup 0 code a) (enabled : (s.ep 0).state ≠ .disabled) (noData : outData a = false) :
    ∃ u t, SetupDone (setupOf i) s u ∧ exec i s = .next t ∧
      (a.recip = 2 → (a.value ≠ 0 ∨ a.length ≠ 0 ∨
        ∀ k : EpIx, k.val = (a.index.extractLsb' 0 8).toNat → s.validEp k = false) → Stalls (setupOf i) s t) ∧
      (a.recip = 2 → a.value = 0 → a.length = 0 →
        ∀ k : EpIx, k.val = (a.index.extractLsb' 0 8).toNat → s.validEp k = true →
          t = (act u k).ep0Finish (setupOf i) (.success []) ∧
          (act u k = u → Answers (setupOf i) [] s t)) ∧
      (a.recip = 0 → a.value = 2 → Answers (setupOf i) [] s t) ∧
      (a.recip ≠ 2 → ¬(a.recip = 0 ∧ a.value = 2) → Forwards (setupOf i) s t) := by
  obtain ⟨packet, u, done, runs⟩ := exec_setup_runs meaning encoding enabled noData
  have ctrl : u.dev.ctrl = packSetup 0 code a := done.ctrl.trans packet
  have recip : u.dev.ctrl.recip = a.recip := by rw [ctrl, packSetup_recip]
  have value : u.dev.ctrl.value = a.value := by rw [ctrl, packSetup_value]
  have length : u.dev.ctrl.length = a.length := by rw [ctrl, packSetup_length]
  have index : u.dev.ctrl.index = a.index := by rw [ctrl, packSetup_index]
  have valid := State.validEp_congr done.cfg
  refine ⟨u, _, done, runs, fun endpoint bad => ?_, fun endpoint halt zero k hk exists_ => ?_, fun device test => ?_,
    fun n other => ?_⟩
  · refine done.run_stall (featureRule_no_endpoint (recip.trans endpoint) (State.featureTarget_none ?_))
    simpa only [value, length, index, valid] using bad
  · have ruled : featureRule act none u = (act u k, .success []) := featureRule_endpoint (recip.trans endpoint)
      (State.featureTarget_some (value.trans halt) (length.trans zero) (by rw [index]; exact hk) ((valid k).trans exists_))
    refine ⟨?_, fun same => done.run_success (ruled.trans (by rw [same]))⟩
    rw [State.runRequest, ruled, done.ctrl]
  · exact done.run_success (featureRule_testMode (recip.trans device) (value.trans test))
  · exact done.run_forward (featureRule_other (recip ▸ n) (by rwa [recip, value]))

theorem SetupDone.ep_eq (done : SetupDone p s u) (hk : k ≠ 0) : u.ep k = s.ep k := done.frame.other k hk

theorem SetupDone.mem (done : SetupDone p s u) : u.mem = s.mem := (congrArg State.mem done.frame.rest :)

/-! ### CLEAR_FEATURE (O33) -/

/-- The record of a stalled endpoint when its stall is cleared (R141). -/
def Endpoint.cleared (e : Endpoint) : Endpoint :=
  { e with state := .idle, stalled := false, halted := false, ctl := { e.ctl with forcestall := false } }

/-- Clearing a stall restarts the queue. -/
theorem State.resumeEp_of_stalled (h : (u.ep k).state = .stalled) :
    u.resumeEp k = (u.modEp k fun _ => (u.ep k).cleared).startTransfer k :=
  (if_pos h).trans (congrArg (State.startTransfer · k) (State.modEp_congr rfl))

theorem State.resumeEp_of_not_stalled (h : (u.ep k).state ≠ .stalled) : u.resumeEp k = u := if_neg h

/-- Where a held packet goes is read from the endpoint's direction, packet and queue, and from what the requests ask for. -/
theorem State.heldStore_congr (cfg : t.cfg = s.cfg) (queue : (t.ep k).queue = (s.ep k).queue)
    (dir : (t.ep k).dir = (s.ep k).dir) (rxpend : (t.ep k).rxpend = (s.ep k).rxpend) (sta : (t.ep k).sta = (s.ep k).sta)
    (reqs : ∀ h, (t.req h).buf = (s.req h).buf ∧ (t.req h).len = (s.req h).len ∧ (t.req h).xfrd = (s.req h).xfrd) :
    t.heldStore k = s.heldStore k := by
  have reader : t.heldReader k = s.heldReader k := by simp only [State.heldReader, queue, reqs]
  unfold State.heldStore
  rw [reader]
  cases s.heldReader k with
  | none => rfl
  | some h =>
    have dma : t.hasDma k = s.hasDma k := by rw [State.hasDma, cfg]; rfl
    have isIn : t.isIn k = s.isIn k := by rw [State.isIn, dir]; rfl
    obtain ⟨buf, len, xfrd⟩ := reqs h
    dsimp only
    rw [dma, isIn, rxpend, sta, buf, len, xfrd]

/-- The SETUP stage changes no endpoint but EP0, and of a request only its completion. -/
theorem SetupDone.heldStore (done : SetupDone p s u) :
    (u.modEp k fun _ => (s.ep k).cleared).heldStore k = s.heldStore k := by
  have ep : (u.modEp k fun _ => (s.ep k).cleared).ep k = (s.ep k).cleared := State.modEp_ep_same ..
  refine State.heldStore_congr done.cfg (congrArg Endpoint.queue ep :) (congrArg Endpoint.dir ep :)
    (congrArg Endpoint.rxpend ep :) (congrArg Endpoint.sta ep :) fun h => ?_
  rw [State.modEp_req, done.frame.requests h]
  split <;> exact ⟨rfl, rfl, rfl⟩

/-- Settles O33. -/
theorem clearFeatureClearsAHalt : Obligations.ClearFeatureClearsAHalt := by
  intro a s enabled noData p e cleared
  obtain ⟨u, t, done, runs, stalls, clears, test, other⟩ :=
    exec_feature (i := .setupClearFeature a) (act := State.resumeEp) (by rw [← reqClearFeature_eq]; rfl) rfl enabled noData
  refine ⟨t, runs, stalls, fun endpoint halt zero k hk valid => ?_, test, other⟩
  obtain ⟨answer, unchanged⟩ := clears endpoint halt zero k hk valid
  refine ⟨fun off => unchanged (State.resumeEp_of_not_stalled ?_), fun k0 stalled => ?_⟩
  · by_cases k0 : k = 0
    · rw [k0, done.idle]; nofun
    · rw [done.ep_eq k0]; exact off.resolve_left k0
  · have same := done.ep_eq k0
    have restarts : u.resumeEp k = (u.modEp k fun _ => cleared (s.ep k)).startTransfer k := by
      rw [State.resumeEp_of_stalled (by rw [same, stalled]), same]
      rfl
    have op : EpFrame k (s.ep k).queue u (u.resumeEp k) := same ▸ (EpFrame.start k u).resumeEp
    have frame : u.OpFrame (u.resumeEp k) := by
      have clear : u.OpFrame (u.modEp k fun _ => cleared (s.ep k)) := rfl
      rw [restarts]
      exact clear.trans (State.startTransfer_opFrame _ k)
    have ep : (u.modEp k fun _ => cleared (s.ep k)).ep k = cleared (s.ep k) := State.modEp_ep_same ..
    have mem : t.mem = (u.resumeEp k).mem := by rw [answer]; rfl
    have epk : t.ep k = (u.resumeEp k).ep k := by rw [answer, State.acknowledge_ep _ _ _ k0]
    refine ⟨⟨u, done.frame, done.ep, ?_, fun j hj => ?_⟩, answer ▸ done.feature k0 op frame, ?_, ?_, fun empty => ?_, ?_⟩
    · rw [← restarts, answer]; rfl
    · rw [← restarts, answer, State.acknowledge_ep _ _ _ hj]
    · rw [epk, restarts]
      have kept := State.startTransfer_kept (Endpoint.Kept.refl ((u.modEp k fun _ => cleared (s.ep k)).ep k))
      rwa [ep] at kept
    · rw [epk, restarts]
      exact State.startTransfer_settled _ (by rw [ep])
    · have nothing : u.resumeEp k = u.modEp k fun _ => cleared (s.ep k) :=
        restarts.trans (State.startTransfer_nil (by rw [ep]; exact empty))
      rw [epk, nothing, ep]
      exact ⟨rfl, empty, fun b => by rw [mem, nothing]; exact congrArg (readByte · b) done.mem⟩
    · intro b outside
      rw [mem, restarts, ← done.mem]
      rw [← done.heldStore] at outside
      exact State.startTransfer_memory _ k b outside

/-! ### SET_FEATURE (O34) -/

theorem State.complete_calls (s : State) (i : EpIx) (r : Result) :
    (s.complete i r).cbList = s.cbList ++ ((s.ep i).queue.take 1).map fun h => .done i h r := by
  cases queue : (s.ep i).queue with
  | nil => rw [State.complete_nil s i r queue]; exact (List.append_nil _).symm
  | cons h rest => rw [State.complete_cons s i r queue]; rfl

/-- Halting an endpoint other than EP0 stalls it and marks it halted. -/
theorem State.haltEp_eq (hk : k ≠ 0) (enabled : (u.ep k).state ≠ .disabled) :
    u.haltEp k = (u.stallEp k).modEp k fun e => { e with halted := true } :=
  (if_neg hk).trans (if_pos (State.stallEp_state enabled))

theorem State.haltEp_zero : u.haltEp 0 = u := if_pos rfl

theorem State.haltEp_disabled (off : (u.ep k).state = .disabled) : u.haltEp k = u := by
  by_cases hk : k = 0
  · rw [hk]; exact State.haltEp_zero
  · refine (if_neg hk).trans ?_
    rw [State.stallEp_off (.inl off)]
    exact if_neg (by rw [off]; nofun)

/-- The transfer under way is stopped, before the endpoint is frozen (R140). -/
theorem State.stopped_ep (u : State) (k : EpIx) :
    (((u.dmaStopIfBusy k).dropInflight k).complete k .ioError).ep k =
      { (u.dmaStopIfBusy k).ep k with queue := (u.ep k).queue.tail } := by
  rw [State.complete_ep_same, State.dropInflight_ep, State.dmaStopIfBusy_ep_same]

theorem State.stopped_calls (u : State) (k : EpIx) :
    (((u.dmaStopIfBusy k).dropInflight k).complete k .ioError).cbList =
      u.cbList ++ ((u.ep k).queue.take 1).map fun h => .done k h .ioError := by
  rw [State.complete_calls, State.dropInflight_calls, (u.dmaStopIfBusy_spec k).2.1, State.dropInflight_ep,
    State.dmaStopIfBusy_ep_same]

theorem State.freezeEp_calls (u : State) (hk : k ≠ 0) : (u.freezeEp k).cbList = u.cbList := by
  rw [State.freezeEp, State.forgetEp0_of_ne hk]; rfl

theorem State.freezeEp_mem (u : State) (hk : k ≠ 0) : (u.freezeEp k).mem = u.mem := by
  rw [State.freezeEp, State.forgetEp0_of_ne hk]; rfl

/-- What a stall leaves of the queue of an endpoint that is not stalled yet (R140). -/
theorem State.stallEp_queue (enabled : (u.ep k).state ≠ .disabled) :
    ((u.stallEp k).ep k).queue = if u.moving k then (u.ep k).queue.tail else (u.ep k).queue := by
  by_cases stalled : (u.ep k).state = .stalled
  · rw [State.stallEp_off (.inr stalled), State.not_moving_of_state stalled nofun nofun]; rfl
  · cases moving : u.moving k with
    | true => rw [State.stallEp_moving moving, State.freezeEp_ep, if_pos rfl, State.stopped_ep]; rfl
    | false => rw [State.stallEp_still moving enabled stalled, State.freezeEp_ep, if_pos rfl]; rfl

/-- A new stall is forced on the endpoint, and its IN packet is withdrawn (R140). -/
theorem State.stallEp_forces (enabled : (u.ep k).state ≠ .disabled) (new : (u.ep k).state ≠ .stalled) :
    ((u.stallEp k).ep k).stalled = true ∧ ((u.stallEp k).ep k).ctl.forcestall = true ∧
      ((u.stallEp k).ep k).ctl.txpktrdy = false := by
  cases moving : u.moving k with
  | true => rw [State.stallEp_moving moving, State.freezeEp_ep, if_pos rfl]; exact ⟨rfl, rfl, rfl⟩
  | false => rw [State.stallEp_still moving enabled new, State.freezeEp_ep, if_pos rfl]; exact ⟨rfl, rfl, rfl⟩

/-- The head of a transfer is completed with `IoError`, and no other request (R140). -/
theorem State.stallEp_calls (hk : k ≠ 0) (enabled : (u.ep k).state ≠ .disabled) (new : (u.ep k).state ≠ .stalled) :
    (u.stallEp k).cbList =
      u.cbList ++ if u.moving k then ((u.ep k).queue.take 1).map (fun h => .done k h .ioError) else [] := by
  cases moving : u.moving k with
  | true => rw [State.stallEp_moving moving, State.freezeEp_calls _ hk, State.stopped_calls]; rfl
  | false => rw [State.stallEp_still moving enabled new, State.freezeEp_calls _ hk]; exact (List.append_nil _).symm

/-- Only the open slice of a transfer under way can be written (R140, R207). -/
theorem State.stallEp_memory_moving (hk : k ≠ 0) :
    SameMemoryOutside (u.ep k).chan.addr (if u.moving k then u.openSlice k else 0) u (u.stallEp k) := by
  cases moving : u.moving k with
  | true => exact State.stallEp_memory u k
  | false =>
    intro b _
    by_cases off : (u.ep k).state = .disabled ∨ (u.ep k).state = .stalled
    · rw [State.stallEp_off off]
    · rw [not_or] at off
      rw [State.stallEp_still moving off.1 off.2, State.freezeEp_mem _ hk]

theorem State.moving_congr (h : t.ep k = s.ep k) : t.moving k = s.moving k := by
  rw [State.moving, h]; rfl

/-- Settles O34. -/
theorem setFeatureHaltsAnEndpoint : Obligations.SetFeatureHaltsAnEndpoint := by
  intro a s enabled noData p e
  obtain ⟨u, t, done, runs, stalls, halts, test, other⟩ :=
    exec_feature (i := .setupSetFeature a) (act := State.haltEp) (by rw [← reqSetFeature_eq]; rfl) rfl enabled noData
  refine ⟨t, runs, stalls, fun endpoint halt zero k hk valid => ?_, test, other⟩
  obtain ⟨answer, unchanged⟩ := halts endpoint halt zero k hk valid
  refine ⟨fun off => unchanged ?_, fun k0 on => ?_⟩
  · by_cases k0 : k = 0
    · rw [k0]; exact State.haltEp_zero
    · exact State.haltEp_disabled (by rw [done.ep_eq k0]; exact off.resolve_left k0)
  · have same := done.ep_eq k0
    have onU : (u.ep k).state ≠ .disabled := by rwa [same]
    have halted := State.haltEp_eq k0 onU
    have op : EpFrame k (s.ep k).queue u (u.haltEp k) := same ▸ (EpFrame.start k u).haltEp
    have frame : u.OpFrame (u.haltEp k) := by
      have mark : (u.stallEp k).OpFrame ((u.stallEp k).modEp k fun e => { e with halted := true }) := rfl
      rw [halted]
      exact (State.stallEp_opFrame k0).trans mark
    have ep : t.ep k = { (u.stallEp k).ep k with halted := true } := by
      rw [answer, State.acknowledge_ep _ _ _ k0, halted, State.modEp_ep_same]
    have mem : t.mem = (u.stallEp k).mem := by rw [answer, halted]; rfl
    have calls : t.cbList = (u.stallEp k).cbList := by rw [answer, halted]; rfl
    refine ⟨answer ▸ done.feature k0 op frame, ?_, by rw [ep], ?_, fun stalled => ?_, fun new => ?_, ?_⟩
    · rw [ep]
      exact State.stallEp_state onU
    · rw [ep, ← State.moving_congr same, ← same]
      exact State.stallEp_queue onU
    · rw [ep, State.stallEp_off (.inr (by rw [same, stalled])), same]
    · have newU : (u.ep k).state ≠ .stalled := by rwa [same]
      obtain ⟨stall, force, ready⟩ := State.stallEp_forces onU newU
      have before := congrArg State.cbList done.frame.rest
      rw [List.append_nil] at before
      rw [ep]
      refine ⟨stall, force, ready, ?_⟩
      rw [calls, State.stallEp_calls k0 onU newU, ← State.moving_congr same, ← same]
      exact congrArg (· ++ _) before
    · intro b outside
      rw [← State.moving_congr same, ← State.openSlice_congr same, ← same] at outside
      rw [mem, ← done.mem]
      exact State.stallEp_memory_moving k0 b outside

end Sys2Proof.Machine
end

section
/-! SUPPORT. The class driver's device-level operations and endpoint reservation: unrecognised command words (O3), the frame
number (O23), the setters (O25), WAKEUP (O24) and ALLOCATE_ENDPOINT (O21). -/

namespace Sys2Proof.Machine

variable {s t : State}

/-! ### Unrecognised command words (O3) -/

/-- A word is no operation if a bit of 31:15 is set or its `op` is not one of R95's table (R164). -/
theorem isInvalidCommand_of_unknown {w : Word}
    (h : w.extractLsb' 15 17 ≠ 0 ∨ (w.extractLsb' 0 8).toNat = 0 ∨ 0x0F < (w.extractLsb' 0 8).toNat) :
    isInvalidCommand w = true := by
  unfold isInvalidCommand
  simp only [Bool.or_eq_true, bne_iff_ne, beq_iff_eq]
  rcases h with high | zero | above
  · exact .inl (.inl high)
  · exact .inl (.inr (BitVec.eq_of_toNat_eq zero))
  · refine .inr fun low => ?_
    have upper := congrArg BitVec.toNat low
    simp only [BitVec.extractLsb'_toNat, Nat.shiftRight_eq_div_pow] at above upper
    simp at above upper
    omega

/-- Settles O3. -/
theorem invalidCommandsChangeNothing : Obligations.InvalidCommandsChangeNothing := fun _ arg _ unknown =>
  ⟨decodeCommand_of_invalid arg (isInvalidCommand_of_unknown unknown), rfl⟩

/-! ### GET_FRAME_NUMBER (O23) -/

/-- `FNUM` reads with five zeros above its eleven bits (R152). -/
theorem State.fnumWord_eq (s : State) : s.fnumWord = 0#5 ++ s.fnum := by
  rw [State.fnumWord, BitVec.setWidth_eq_append (by decide)]
  rfl

theorem exec_getFrameNumber (s : State) : exec .getFrameNumber s = .next { s with ret := .frame s.fnumWord } := rfl

/-- Settles O23: the frame number a SOF carries is the one the command returns. -/
theorem getFrameNumberReturnsFnum : Obligations.GetFrameNumberReturnsFnum := by
  refine ⟨rfl, fun s => ⟨?_, fun t sof => ?_⟩⟩
  · rw [exec_getFrameNumber, State.fnumWord_eq]
  · have frame : t.fnum = 0x7FF := by cases sof; rfl
    rw [exec_getFrameNumber, State.fnumWord, frame]
    rfl

/-! ### SET_SELF_POWERED, SET_PULLUP and BIND (O25) -/

/-- The states below `Powered` are `Suspended` and `Attached` (R36). -/
theorem DevState.poweredOrHigher_iff (d : DevState) : d.poweredOrHigher = true ↔ d ≠ .suspended ∧ d ≠ .attached := by
  cases d <;> decide

theorem exec_setPullup (b : Bool) (s : State) : exec (.setPullup b) s = execSetPullup b s := rfl
theorem exec_bind (d : Ref) (s : State) : exec (.bind d) s = execBind d s := rfl

/-- Settles O25. -/
theorem deviceSettersWriteOneField : Obligations.DeviceSettersWriteOneField := by
  intro b d s
  refine ⟨rfl, ?_, ?_⟩
  · rw [exec_setPullup, execSetPullup]
    simp only [Bool.and_eq_true, Bool.not_eq_true', DevState.poweredOrHigher_iff]
    split <;> rfl
  · rw [exec_bind, execBind]
    by_cases null : d = nullRef
    · rw [if_pos null, if_pos (.inl null)]
      rfl
    · by_cases bound : s.dev.driver ≠ nullRef
      · rw [if_neg null, if_pos bound, if_pos (.inr bound)]
        rfl
      · rw [if_neg null, if_neg bound, if_neg (by simp [null, bound])]
        rfl

/-! ### WAKEUP (O24) -/

theorem State.notify_eq (s : State) (c : Callback) :
    s.notify c = { s with cbList := s.cbList ++ if s.dev.driver = nullRef then [] else [c] } := by
  unfold State.notify
  split
  · rw [List.append_nil]
  · rfl

/-- Resuming restores the saved state, ungates the clock and tells a bound class driver (R286). -/
theorem State.deviceResume_eq (s : State) : s.deviceResume = { s with
    dev := { s.dev with state := s.dev.prevstate, clkGated := false }
    devCtl := { s.devCtl with clkgate := false }
    cbList := s.cbList ++ if s.dev.driver = nullRef then [] else [.onResume] } := by
  rw [State.deviceResume, State.notify_eq]
  rfl

/-- The state in which WAKEUP begins its wait: resumed if it was asleep, the signalling requested (R154). -/
def State.signalling (s : State) : State :=
  { (if s.dev.state = .suspended then s.deviceResume else s) with
    devCtl := { (if s.dev.state = .suspended then s.deviceResume else s).devCtl with rwake := true } }

theorem exec_wakeup (s : State) :
    exec .wakeup s = .next ((spinRwake s.signalling.cfg.wakeupSpinBound s.signalling).answer .ok) := rfl

theorem State.signalling_eq (s : State) : s.signalling =
    let asleep := decide (s.dev.state = .suspended)
    { s with
      dev := { s.dev with
        state := if asleep then s.dev.prevstate else s.dev.state
        clkGated := if asleep then false else s.dev.clkGated }
      cbList := s.cbList ++ if asleep && decide (s.dev.driver ≠ nullRef) then [.onResume] else []
      devCtl := { s.devCtl with rwake := true, clkgate := if asleep then false else s.devCtl.clkgate } } := by
  unfold State.signalling
  by_cases asleep : s.dev.state = .suspended
  · simp [asleep, State.deviceResume_eq]
  · simp [asleep]

/-- The wait ends once the bit is clear. -/
theorem spinRwake_of_clear (k : Nat) (clear : s.devCtl.rwake = false) : spinRwake k s = s := by
  cases k with
  | zero => rfl
  | succ k => exact if_neg (by simp [clear])

/-- The wait runs out if no RWAKE_DONE arrives in it. -/
theorem spinRwake_of_quiet (k : Nat) (quiet : s.pollRwake = s) : spinRwake k s = s := by
  induction k with
  | zero => rfl
  | succ k ih =>
    unfold spinRwake
    split
    · rw [quiet, ih]
    · rfl

theorem State.pollRwake_of_done {args : List Byte} {rest : List Input} (h : s.input = .stim true (0x8C :: args) :: rest) :
    s.pollRwake = { s with input := rest, devCtl := { s.devCtl with rwake := false } } := by
  unfold State.pollRwake
  rw [h]
  rfl

theorem State.pollRwake_of_quiet (h : ∀ args rest, s.input ≠ .stim true (0x8C :: args) :: rest) : s.pollRwake = s := by
  unfold State.pollRwake
  split
  · next code args rest hi =>
    refine if_neg fun done => h args rest ?_
    rw [hi, done]
  · rfl

/-- The bounded wait in all: the bus clears the bit or it stays (assumption 20). -/
theorem spinRwake_eq {k : Nat} (bound : 1 ≤ k) (set : s.devCtl.rwake = true) : spinRwake k s = s.pollRwake := by
  obtain ⟨k, rfl⟩ := Nat.exists_eq_add_of_le' bound
  have turn : spinRwake (k + 1) s = spinRwake k s.pollRwake := if_pos set
  rw [turn]
  by_cases done : ∃ args rest, s.input = .stim true (0x8C :: args) :: rest
  · obtain ⟨args, rest, hi⟩ := done
    rw [State.pollRwake_of_done hi]
    exact spinRwake_of_clear k rfl
  · have quiet := State.pollRwake_of_quiet (s := s) fun args rest hi => done ⟨args, rest, hi⟩
    rw [quiet]
    exact spinRwake_of_quiet k quiet

/-- Settles O24: the wait is one look at the head of the input (`spinRwake_eq`). -/
theorem wakeupResumesAndSignals : Obligations.WakeupResumesAndSignals := by
  intro s bound asleep
  have cfg : s.signalling.cfg = s.cfg := by rw [State.signalling_eq]
  have input : s.signalling.input = s.input := by rw [State.signalling_eq]
  have set : s.signalling.devCtl.rwake = true := rfl
  refine ⟨s.signalling.pollRwake.answer .ok, ?_, ?_⟩
  · rw [exec_wakeup, spinRwake_eq (by rw [cfg]; exact bound) set]
  by_cases done : ∃ args rest, s.input = .stim true (0x8C :: args) :: rest
  · obtain ⟨args, rest, hi⟩ := done
    rw [State.pollRwake_of_done (input.trans hi), State.signalling_eq]
    refine ⟨rfl, fun none => absurd hi (none args rest), fun args' rest' hi' => ?_⟩
    rw [hi] at hi'
    cases hi'
    exact ⟨rfl, rfl⟩
  · have quiet : ∀ args rest, s.input ≠ .stim true (0x8C :: args) :: rest := fun args rest hi => done ⟨args, rest, hi⟩
    rw [State.pollRwake_of_quiet (by rwa [input]), State.signalling_eq]
    exact ⟨rfl, fun _ => ⟨rfl, rfl⟩, fun args rest hi => absurd hi (quiet args rest)⟩

/-! ### ALLOCATE_ENDPOINT (O21) -/

/-- The first hit in a rising list is the least one. -/
theorem find?_of_least {α : Type} [LinearOrder α] {l : List α} (rising : l.Pairwise (· < ·)) {p : α → Bool} {k : α}
    (mem : k ∈ l) (hit : p k = true) (least : ∀ j, j < k → p j = false) : l.find? p = some k := by
  obtain ⟨before, after, rfl⟩ := List.append_of_mem mem
  obtain ⟨-, -, below⟩ := List.pairwise_append.mp rising
  rw [List.find?_eq_some_iff_append]
  exact ⟨hit, before, after, rfl, fun j hj => by simp [least j (below j hj k List.mem_cons_self)]⟩

/-- ALLOCATE_ENDPOINT may give out endpoint `k` (R146). -/
def State.allocatable (s : State) (ty : EpType) (k : EpIx) : Prop :=
  k ≠ 0 ∧ s.validEp k = true ∧ (s.ep k).reserved = false ∧ s.epSupports k ty = true

section
variable {ty : EpType} {k n : EpIx}

theorem State.epList_pairwise (s : State) : s.epList.Pairwise (· < ·) := List.Pairwise.filter _ (by decide)

/-- Of the endpoints that exist, the search takes those that may be given out. -/
theorem State.allocatable_iff (exists_ : s.validEp k = true) : s.allocatable ty k ↔
    (decide (k ≠ 0) && !(s.ep k).reserved && s.epSupports k ty) = true := by
  simp [State.allocatable, exists_, and_assoc]

theorem State.findFreeEp_of_least (free : s.allocatable ty k) (least : ∀ j, j < k → ¬s.allocatable ty j) :
    s.findFreeEp ty = some k := by
  obtain ⟨-, exists_, -⟩ := id free
  refine find?_of_least s.epList_pairwise ((s.mem_epList k).mpr exists_) ((State.allocatable_iff exists_).mp free)
    fun j below => ?_
  have exists_j : s.validEp j = true := by
    simp only [State.validEp, decide_eq_true_eq] at exists_ ⊢
    exact Nat.lt_trans below exists_
  simpa using mt (State.allocatable_iff exists_j).mpr (least j below)

theorem State.findFreeEp_of_none (full : ∀ k, ¬s.allocatable ty k) : s.findFreeEp ty = none :=
  List.find?_eq_none.mpr fun k hk => mt (State.allocatable_iff ((s.mem_epList k).mp hk)).mpr (full k)

theorem State.reserveEp_ep_same (s : State) (k : EpIx) (dirIn : Bool) (ty : EpType) : (s.reserveEp k dirIn ty).ep k =
    { s.ep k with reserved := true, dir := if dirIn then .dirIn else .dirOut, type := ty } :=
  State.modEp_ep_same s k fun e => { e with reserved := true, dir := dirOfFlag dirIn, type := ty }

theorem State.reserveEp_ep_other (s : State) (dirIn : Bool) (ty : EpType) {j : EpIx} (hj : j ≠ k) :
    (s.reserveEp k dirIn ty).ep j = s.ep j :=
  State.modEp_ep_other s k j (fun e => { e with reserved := true, dir := dirOfFlag dirIn, type := ty }) hj

theorem exec_allocateEndpoint (n : EpIx) (dirIn : Bool) (ty : EpType) (s : State) :
    exec (.allocateEndpoint n dirIn ty) s = execAllocateEndpoint n dirIn ty s := rfl

/-- An endpoint named is given out if it may be (R146). -/
theorem execAllocateEndpoint_named (dirIn : Bool) (named : n ≠ 0) : execAllocateEndpoint n dirIn ty s =
    if s.validEp n && !(s.ep n).reserved && s.epSupports n ty then .next (s.reserveEp n dirIn ty)
    else .next { s with ret := .endpoint none } := if_pos named

/-- With none named the lowest that may be is (R146). -/
theorem execAllocateEndpoint_any (dirIn : Bool) : execAllocateEndpoint 0 dirIn ty s =
    match s.findFreeEp ty with
    | some k => .next (s.reserveEp k dirIn ty)
    | none => .next { s with ret := .endpoint none } := if_neg (by decide)

end

/-- Settles O21: the reserved endpoint is the one named or the first the search finds, which is the least. -/
theorem allocateEndpointTakesLowestFree : Obligations.AllocateEndpointTakesLowestFree := by
  intro n dirIn ty s free
  have free_iff : ∀ k, free k ↔ (n = 0 ∨ k = n) ∧ s.allocatable ty k := fun k => by
    simp only [free, State.allocatable]
    tauto
  refine ⟨fun k hk least => ⟨s.reserveEp k dirIn ty, ?_, rfl, s.reserveEp_ep_same k dirIn ty,
    fun j hj => s.reserveEp_ep_other dirIn ty hj⟩, fun full => ?_⟩
  · obtain ⟨asked, allowed⟩ := (free_iff k).mp hk
    rw [exec_allocateEndpoint]
    by_cases any : n = 0
    · have lowest : s.findFreeEp ty = some k :=
        State.findFreeEp_of_least allowed fun j below hj => least j below ((free_iff j).mpr ⟨.inl any, hj⟩)
      rw [any, execAllocateEndpoint_any, lowest]
    · obtain rfl := asked.resolve_left any
      obtain ⟨-, exists_, unreserved, supports⟩ := allowed
      rw [execAllocateEndpoint_named dirIn any, if_pos (by simp [exists_, unreserved, supports])]
  · rw [exec_allocateEndpoint]
    by_cases any : n = 0
    · have nothing : s.findFreeEp ty = none :=
        State.findFreeEp_of_none fun k hk => full k ((free_iff k).mpr ⟨.inl any, hk⟩)
      rw [any, execAllocateEndpoint_any, nothing]
    · have bad : ¬s.allocatable ty n := fun hn => full n ((free_iff n).mpr ⟨.inr rfl, hn⟩)
      rw [execAllocateEndpoint_named dirIn any, if_neg]
      simpa [State.allocatable, any, and_assoc] using bad

end Sys2Proof.Machine
end

section
/-! SUPPORT. The class driver's operations on one endpoint's queue: RESUME_STALL (O19), STALL (O18) and CANCEL (O16). -/

namespace Sys2Proof.Machine

variable {s t u : State} {i : EpIx}

/-! ### RESUME_STALL (O19) -/

theorem exec_resumeStall (i : EpIx) (s : State) : exec (.resumeStall i) s =
    if !s.validEp i then .next (s.answer .invalidArgs) else .next ((s.resumeEp i).answer .ok) := rfl

theorem State.modEp_same (s : State) (i : EpIx) (e : Endpoint) : (s.modEp i fun _ => e).ep i = e :=
  State.modEp_ep_same s i fun _ => e

/-- Clearing a stall leaves what the queue will read a held packet from. -/
theorem State.cleared_heldStore (s : State) (i : EpIx) :
    (s.modEp i fun _ => (s.ep i).cleared).heldStore i = s.heldStore i := by
  have ep := s.modEp_same i (s.ep i).cleared
  exact State.heldStore_congr rfl (congrArg Endpoint.queue ep :) (congrArg Endpoint.dir ep :)
    (congrArg Endpoint.rxpend ep :) (congrArg Endpoint.sta ep :) fun _ => ⟨rfl, rfl, rfl⟩

/-- Settles O19: the stalled endpoint's record is cleared, and then its queue starts (`State.resumeEp_of_stalled`). -/
theorem resumeStallRestartsTheQueue : Obligations.ResumeStallRestartsTheQueue := by
  intro i s
  have valid : s.validEp i = true → exec (.resumeStall i) s = .next ((s.resumeEp i).answer .ok) := fun hv => by
    rw [exec_resumeStall, hv]
    rfl
  refine ⟨fun hv => ?_, fun hv on => ?_, fun hv stalled => ?_⟩
  · rw [exec_resumeStall, hv]
    rfl
  · rw [valid hv, State.resumeEp_of_not_stalled on]
    rfl
  · intro e
    have ep : (s.modEp i fun _ => e).ep i = e := s.modEp_same i e
    have restarts : s.resumeEp i = (s.modEp i fun _ => e).startTransfer i := State.resumeEp_of_stalled stalled
    have frame : EpFrame i (s.ep i).queue s (s.resumeEp i) := (EpFrame.start i s).resumeEp
    refine ⟨(s.resumeEp i).answer .ok, valid hv, by rw [restarts]; rfl, { frame with }, ?_, ?_, fun empty => ?_, ?_⟩
    · rw [State.answer_ep, restarts]
      have kept := State.startTransfer_kept (Endpoint.Kept.refl ((s.modEp i fun _ => e).ep i))
      rwa [ep] at kept
    · rw [State.answer_ep, restarts]
      exact State.startTransfer_settled _ (by rw [ep])
    · rw [restarts, State.startTransfer_nil (by rw [ep]; exact empty)]
      exact ⟨ep, rfl⟩
    · intro a outside
      rw [← s.cleared_heldStore i] at outside
      rw [restarts]
      exact State.startTransfer_memory _ i a outside

/-! ### STALL (O18) -/

theorem exec_stall (i : EpIx) (s : State) : exec (.stall i) s =
    if !s.validEp i then .next (s.answer .invalidArgs) else .next ((s.stallEp i).answer .ok) := rfl

/-- What stalling an endpoint does once the transfer under way is stopped: it writes its record and, for EP0, the Device
record's fields of the OUT data stage (R140). -/
theorem State.freezeEp_rest (s : State) (i : EpIx) : s.freezeEp i = { s with
    eps := (s.freezeEp i).eps
    dev := if i = 0 then { s.dev with scratchCount := 0, pendingAddr := 0 } else s.dev } := by
  unfold State.freezeEp State.forgetEp0
  split <;> rfl

theorem State.freezeEp_ep_same (s : State) (i : EpIx) : (s.freezeEp i).ep i = { s.ep i with
    state := .stalled, stalled := true, txnullpkt := false
    ctl := { (s.ep i).ctl with forcestall := true, txpktrdy := false }
    fifo := { (s.ep i).fifo with fill := [], tx := [] } } := (s.freezeEp_ep i i).trans (if_pos rfl)

/-- The transfer under way at endpoint `i` is stopped and its head completed with `IoError` (R140). -/
def State.abortHead (s : State) (i : EpIx) : State :=
  if s.moving i then ((s.dmaStopIfBusy i).dropInflight i).complete i .ioError else s

/-- Stalling an endpoint that is on is stopping its transfer and freezing it (R140). -/
theorem State.stallEp_eq (on : (s.ep i).state ≠ .disabled) (new : (s.ep i).state ≠ .stalled) :
    s.stallEp i = (s.abortHead i).freezeEp i := by
  unfold State.abortHead
  cases moving : s.moving i with
  | true => exact State.stallEp_moving moving
  | false => exact State.stallEp_still moving on new

/-- What aborting the head leaves of the machine: the endpoint with its channel stopped and its queue without the head, and
the head completed, its count of bytes kept. -/
theorem State.abortHead_ep (s : State) (i : EpIx) : (s.abortHead i).ep i = { s.ep i with
    queue := if s.moving i then (s.ep i).queue.tail else (s.ep i).queue
    dmaBusy := if s.moving i then false else (s.ep i).dmaBusy
    chan := if s.moving i && (s.ep i).dmaBusy then { (s.ep i).chan with
        en := false, ie := false, eob := false, eoc := false, err := false, running := false }
      else (s.ep i).chan
    fifo := { (s.ep i).fifo with rx := ((s.abortHead i).ep i).fifo.rx } } := by
  unfold State.abortHead
  cases s.moving i with
  | false => rfl
  | true =>
    rw [if_pos rfl, State.stopped_ep, State.dmaStopIfBusy_ep_same]
    cases busy : (s.ep i).dmaBusy <;> simp [Endpoint.stoppedChan, busy]

theorem State.abortHead_rx (s : State) (i : EpIx) :
    RxLeft (if s.moving i then s.openSlice i else 0) (s.ep i).fifo.rx ((s.abortHead i).ep i).fifo.rx := by
  unfold State.abortHead
  cases s.moving i with
  | false => exact ⟨0, Nat.le_refl 0, rfl⟩
  | true =>
    rw [if_pos rfl, if_pos rfl, State.stopped_ep]
    exact State.dmaStopIfBusy_rx s i

theorem State.abortHead_calls (s : State) (i : EpIx) : (s.abortHead i).cbList =
    s.cbList ++ if s.moving i then ((s.ep i).queue.take 1).map (fun h => .done i h .ioError) else [] := by
  unfold State.abortHead
  cases s.moving i with
  | false => exact (List.append_nil _).symm
  | true => exact s.stopped_calls i

theorem State.abortHead_memory (s : State) (i : EpIx) :
    SameMemoryOutside (s.ep i).chan.addr (if s.moving i then s.openSlice i else 0) s (s.abortHead i) := by
  unfold State.abortHead
  cases s.moving i with
  | false => exact fun _ _ => rfl
  | true =>
    intro a outside
    rw [if_pos rfl, State.complete_mem, State.dropInflight_mem]
    exact State.dmaStopIfBusy_memory s i a outside

theorem State.dmaStopIfBusy_dev (s : State) (i : EpIx) : (s.dmaStopIfBusy i).dev = s.dev := by
  have dropped : ∀ u : State, (u.dropInflight i).dev = u.dev := fun u => by unfold State.dropInflight; split <;> rfl
  obtain ⟨scrambled, -⟩ := State.scrambleSlice_spec s i
  unfold State.dmaStopIfBusy
  split
  · rw [State.dmaStop_eq, dropped]
    exact (congrArg State.dev scrambled :)
  · rfl

theorem completed_congr {q q' : Request} (same : completed .shutdown q' = completed .shutdown q) (r : Result) :
    completed r q' = completed r q := (congrArg (fun q : Request => { q with result := some r }) same :)

section
variable {h k : Ref} {rest : List Ref}

/-- Stopping a channel forgets the bytes in flight of the head request alone (R207). -/
theorem State.dropInflight_req_other (queue : (s.ep i).queue = h :: rest) (hk : k ≠ h) :
    (s.dropInflight i).req k = s.req k := by
  unfold State.dropInflight State.peek
  rw [queue]
  exact s.modReq_req_other h k _ hk

theorem State.dmaStopIfBusy_req_other (queue : (s.ep i).queue = h :: rest) (hk : k ≠ h) :
    (s.dmaStopIfBusy i).req k = s.req k := by
  obtain ⟨-, reqs, -⟩ := State.scrambleSlice_frame s i
  obtain ⟨-, -, ep, -⟩ := State.scrambleSlice_spec s i
  unfold State.dmaStopIfBusy
  split
  · rw [State.dmaStop_eq, State.dropInflight_req_other (h := h) (rest := rest) ?_ hk]
    · exact State.req_congr reqs k
    · rw [State.setDmaPending_ep, State.modEp_ep_same, ep]
      exact queue
  · rfl

theorem State.abortHead_req (queue : (s.ep i).queue = h :: rest) :
    (s.hasReq h = true → (s.abortHead i).req h = if s.moving i then completed .ioError (s.req h) else s.req h) ∧
      ∀ k, k ≠ h → (s.abortHead i).req k = s.req k := by
  unfold State.abortHead
  cases s.moving i with
  | false => exact ⟨fun _ => rfl, fun _ _ => rfl⟩
  | true =>
    obtain ⟨-, -, has, stopped⟩ := s.dmaStopIfBusy_spec i
    have stoppedQueue : ((s.dmaStopIfBusy i).ep i).queue = h :: rest := by rw [State.dmaStopIfBusy_ep_same]; exact queue
    have done := State.complete_cons ((s.dmaStopIfBusy i).dropInflight i) i .ioError
      ((congrArg Endpoint.queue (State.dropInflight_ep _ i i)).trans stoppedQueue)
    rw [if_pos rfl, if_pos rfl, done]
    refine ⟨fun known => ?_, fun k hk => ?_⟩
    · rw [State.callback_req, State.modReq_req_same _ h _ ?_]
      · exact completed_congr ((State.dropInflight_req _ i h).trans (stopped h)) .ioError
      · exact (State.dropInflight_hasReq _ i h).trans ((has h).trans known)
    · rw [State.callback_req, State.modReq_req_other _ h k _ hk, State.modEp_req, State.dropInflight_req_other stoppedQueue hk,
        State.dmaStopIfBusy_req_other queue hk]

end

theorem State.abortHead_rest (s : State) (i : EpIx) : (s.abortHead i).log = s.log ∧ (s.abortHead i).dev = s.dev := by
  unfold State.abortHead
  split
  · have dropped : ∀ u : State, (u.dropInflight i).dev = u.dev := fun u => by unfold State.dropInflight; split <;> rfl
    rw [State.complete_log, State.complete_dev, dropped, State.dmaStopIfBusy_dev]
    exact ⟨(State.dropInflight_frame _ i).log.trans (s.dmaStopIfBusy_spec i).1.log, rfl⟩
  · exact ⟨rfl, rfl⟩

/-- Settles O18: a transfer under way is aborted (`State.abortHead`), and then the endpoint's record is written. -/
theorem stallAbortsOnlyTheHead : Obligations.StallAbortsOnlyTheHead := by
  intro i s
  have valid : s.validEp i = true → exec (.stall i) s = .next ((s.stallEp i).answer .ok) := fun hv => by
    rw [exec_stall, hv]
    rfl
  refine ⟨fun hv => ?_, fun hv off => ?_, fun hv on new => ?_⟩
  · rw [exec_stall, hv]
    rfl
  · rw [valid hv, State.stallEp_off off]
    rfl
  · intro e stop
    have frame : EpFrame i e.queue s (s.stallEp i) := (EpFrame.start i s).stallEp
    have ep := State.freezeEp_ep_same (s.abortHead i) i
    have rest := State.freezeEp_rest (s.abortHead i) i
    obtain ⟨log, dev⟩ := s.abortHead_rest i
    rw [← State.stallEp_eq on new] at ep rest
    have dev' : (s.stallEp i).dev = if i = 0 then { s.dev with scratchCount := 0, pendingAddr := 0 } else s.dev := by
      rw [← dev]
      exact congrArg State.dev rest
    have mem : (s.stallEp i).mem = (s.abortHead i).mem := (congrArg State.mem rest :)
    have req : ∀ k, (s.stallEp i).req k = (s.abortHead i).req k := State.req_congr (congrArg State.reqs rest :)
    have rx : ((s.stallEp i).ep i).fifo.rx = ((s.abortHead i).ep i).fifo.rx := (congrArg (·.fifo.rx) ep :)
    refine ⟨(s.stallEp i).answer .ok, valid hv, rfl, { frame with }, (congrArg State.log rest :).trans log, ?_, fun h0 => ?_,
      ?_, ?_, (congrArg State.cbList rest :).trans (s.abortHead_calls i), fun h more queue => ?_, fun a outside => ?_⟩
    · show (s.stallEp i).dev.rxpending = _
      rw [dev']
      split <;> rfl
    · show (s.stallEp i).dev.scratchCount = 0 ∧ (s.stallEp i).dev.pendingAddr = 0
      rw [dev', if_pos h0]
      exact ⟨rfl, rfl⟩
    · rw [State.answer_ep, rx, ep]
      conv_lhs => rw [State.abortHead_ep]
    · rw [State.answer_ep, rx]
      exact s.abortHead_rx i
    · obtain ⟨head, others⟩ := s.abortHead_req queue
      exact ⟨fun known => (req h).trans (head known), fun k hk => (req k).trans (others k hk)⟩
    · show readByte (s.stallEp i).mem a = _
      rw [mem]
      exact s.abortHead_memory i a outside

/-! ### CANCEL (O16) -/

/-- An endpoint that has left its transfer with its transmit banks emptied (R173). -/
def Endpoint.withdrawn (e : Endpoint) : Endpoint :=
  { e with
    state := if e.state = .sending ∨ e.state = .receiving then .idle else e.state
    ctl := { e.ctl with txpktrdy := false }
    fifo := { e.fifo with fill := [], tx := [] } }

theorem State.postCancel_eq (s : State) (i : EpIx) : s.postCancel i = s.modEp i Endpoint.withdrawn := by
  unfold State.postCancel State.withdrawTx
  rw [State.modEp_modEp]
  rfl

theorem State.shutOff_dev (s : State) (i : EpIx) : (s.shutOff i).dev = s.dev := by
  show (State.drain _ i .shutdown).dev = _
  rw [State.drain_dev, State.dmaStopIfBusy_dev]
  rfl

/-- The record CANCEL leaves once the endpoint is shut off: out of its transfer, and unmasked unless disabled (R136). -/
def Endpoint.cancelled (i : EpIx) (dma : Bool) (e : Endpoint) : Endpoint :=
  if e.state ≠ .disabled then e.withdrawn.unmasked i dma else e.withdrawn

theorem Endpoint.cancelled_kept (i : EpIx) (dma : Bool) (e : Endpoint) :
    (e.cancelled i dma).reserved = e.reserved ∧ (e.cancelled i dma).queue = e.queue ∧
      (e.cancelled i dma).fifo = { e.fifo with fill := [], tx := [] } := by
  unfold Endpoint.cancelled
  split <;> exact ⟨rfl, rfl, rfl⟩

/-- CANCEL shuts the endpoint off and then writes its record (R136). -/
theorem execCancel_eq (h : Ref) (valid : s.validEp i = true) : exec (.cancel i h) s =
    .next (((s.shutOff i).modEp i (Endpoint.cancelled i (s.hasDma i))).answer .ok) := by
  have dma : ((s.shutOff i).modEp i Endpoint.withdrawn).hasDma i = s.hasDma i :=
    State.hasDma_congr (State.shutOff_shut s i).frame.cfg i
  have state : ((s.shutOff i).ep i).state = (s.ep i).state := by
    obtain ⟨rx, -, ep⟩ := s.shutOff_ep_same i
    rw [ep]
  have unfolded : exec (.cancel i h) s = if !s.validEp i then .next (s.answer .invalidArgs) else
      .next ((if (s.ep i).state ≠ .disabled then ((s.shutOff i).postCancel i).unmaskEpIrq i
        else (s.shutOff i).postCancel i).answer .ok) := rfl
  rw [unfolded, if_neg (by simp [valid]), State.postCancel_eq, State.unmaskEpIrq_eq, State.modEp_modEp, dma]
  congr 2
  split
  · next on => exact State.modEp_congr (if_pos (state ▸ on)).symm
  · next off => exact State.modEp_congr (if_neg (state ▸ off)).symm

/-- Settles O16: the endpoint is shut off (`State.shutOff_shut`), and then its record is written (`execCancel_eq`). -/
theorem cancelDrainsTheQueue : Obligations.CancelDrainsTheQueue := by
  intro i h s
  refine ⟨fun hv => ?_, fun hv => ?_⟩
  · have unfolded : exec (.cancel i h) s = execCancel i h s := rfl
    rw [unfolded, execCancel, hv]
    rfl
  · intro e on
    have shut := State.shutOff_shut s i
    obtain ⟨rx, left, off⟩ := s.shutOff_ep_same i
    obtain ⟨reserved, queue, fifo⟩ := ((s.shutOff i).ep i).cancelled_kept i (s.hasDma i)
    have frame : EpFrame i (s.ep i).queue s ((s.shutOff i).modEp i (Endpoint.cancelled i (s.hasDma i))) :=
      ((EpFrame.start i s).maskEpIrq.dmaStopIfBusy.cancelAll .shutdown).modEp _ reserved fun k hk => queue ▸ hk
    have ep : (((s.shutOff i).modEp i (Endpoint.cancelled i (s.hasDma i))).answer .ok).ep i =
        ((s.shutOff i).ep i).cancelled i (s.hasDma i) := State.modEp_ep_same ..
    have calls := shut.calls
    rw [List.flatMap_singleton] at calls
    refine ⟨_, execCancel_eq h hv, rfl, { frame with }, ⟨?_, calls, fun k => shut.done i k List.mem_cons_self⟩,
      s.shutOff_dev i, shut.frame.log, ?_, ?_, fun a outside => shut.memory a fun j hj => ?_⟩
    · rw [ep, queue, off]
    · rw [ep, off]
      by_cases disabled : e.state = .disabled
      · simp [Endpoint.cancelled, Endpoint.withdrawn, State.moving, e, on, disabled]
      · have rxIe : (decide (i = 0) || !s.isIn i) = (decide (i = 0) || !decide (e.dir = .dirIn)) := by
          unfold State.isIn
          cases decide (i = 0) <;> rfl
        rw [Bool.and_assoc, Bool.and_assoc, rxIe]
        simp [Endpoint.cancelled, Endpoint.withdrawn, Endpoint.unmasked, Endpoint.stoppedChan, State.moving, State.isIn, e, on,
          disabled]
    · rw [ep, fifo, off]
      exact left
    · rw [List.mem_singleton.mp hj]
      exact outside

end Sys2Proof.Machine
end

section
/-! SUPPORT. UNBIND (O26): every endpoint but EP0 is disabled, by increasing number, then EP0's queue is cancelled. -/

namespace Sys2Proof.Machine

variable {s : State} {i : EpIx}

/-! ### The endpoints, one after another -/

theorem State.disableEp_shut (s : State) (h0 : i ≠ 0) : State.EpsShut [i] s (s.disableEp i) := by
  rw [State.disableEp_eq]
  refine (State.shutOff_shut s i).congr ?_ rfl rfl rfl
  simp only [if_neg h0]
  rfl

/-- What UNBIND does at an endpoint first: EP0 is masked and its queue cancelled, any other endpoint disabled (R162). -/
def State.unbindEp (i : EpIx) (s : State) : State :=
  if i = 0 then (s.maskEpIrq 0).cancelAll 0 .shutdown else s.disableEp i

theorem State.maskCancel_shut (s : State) (i : EpIx) : State.EpsShut [i] s ((s.maskEpIrq i).cancelAll i .shutdown) := by
  have queue : ((s.maskEpIrq i).ep i).queue = (s.ep i).queue := by rw [State.maskEpIrq_ep, if_pos rfl]
  obtain ⟨-, -, calls, req, handles, -⟩ := State.drain_spec (s.maskEpIrq i) i .shutdown
  rw [queue] at calls req
  have masked : s.ShutFrame (s.maskEpIrq i) := rfl
  refine ⟨masked.trans (State.cancelAll_frame _ i _), ?_, State.hasReq_congr handles, fun h hh => ?_,
    fun j h hj hh known => ?_, fun a _ => ?_⟩
  · rw [List.flatMap_singleton]
    exact calls
  · exact (req h).trans (if_neg fun q => hh i List.mem_cons_self q.1)
  · rw [List.mem_singleton.mp hj] at hh
    exact (req h).trans (if_pos ⟨hh, known⟩)
  · rw [State.cancelAll_mem]
    rfl

theorem State.unbindEp_shut (i : EpIx) (s : State) : State.EpsShut [i] s (s.unbindEp i) := by
  unfold State.unbindEp
  split
  · next h0 => exact h0 ▸ s.maskCancel_shut 0
  · next h0 => exact s.disableEp_shut h0

theorem State.unbindEp_other (i : EpIx) (s : State) (j : EpIx) (hj : j ≠ i) : (s.unbindEp i).ep j = s.ep j := by
  unfold State.unbindEp
  split
  · next h0 =>
    subst h0
    exact ((EpFrame.start 0 s).maskEpIrq.cancelAll .shutdown).other j hj
  · exact (EpFrame.start i s).disableEp.other j hj

/-- The endpoints of UNBIND in its order: every one that exists but EP0, then EP0 (R162). -/
def State.unbindList (s : State) : List EpIx := s.epList.filter (fun i => decide (i ≠ 0)) ++ [0]

theorem State.mem_others (s : State) (i : EpIx) :
    i ∈ s.epList.filter (fun i => decide (i ≠ 0)) ↔ i ≠ 0 ∧ s.validEp i = true := by
  rw [List.mem_filter, State.mem_epList, decide_eq_true_eq, and_comm]

theorem State.mem_unbindList (pos : 1 ≤ s.cfg.numEp) (i : EpIx) : i ∈ s.unbindList ↔ s.validEp i = true := by
  have valid0 := State.validEp_zero pos
  rw [State.unbindList, List.mem_append, State.mem_others, List.mem_singleton]
  by_cases h0 : i = 0
  · simp [h0, valid0]
  · simp [h0]

theorem State.others_nodup (s : State) : (s.epList.filter fun i => decide (i ≠ 0)).Nodup := s.epList_nodup.filter _

theorem State.unbindList_nodup (s : State) : s.unbindList.Nodup :=
  List.nodup_append.mpr ⟨s.others_nodup, List.nodup_singleton 0, fun i hi _ hj e =>
    ((s.mem_others i).mp hi).1 (e.trans (List.mem_singleton.mp hj))⟩

/-- The endpoints once their queues are cancelled, before EP0 is let on. -/
def State.unbindEps (s : State) : State := s.forEps s.unbindList State.unbindEp

/-- The same before EP0's turn. -/
def State.unbindOthers (s : State) : State :=
  s.forEps (s.epList.filter fun i => decide (i ≠ 0)) fun i s => s.disableEp i

theorem State.unbindOthers_eq (s : State) :
    s.unbindOthers = s.forEps (s.epList.filter fun i => decide (i ≠ 0)) State.unbindEp :=
  List.foldl_ext _ _ s fun _ i hi => (if_neg ((s.mem_others i).mp hi).1).symm

theorem State.unbindEps_eq (s : State) : s.unbindEps = (s.unbindOthers.maskEpIrq 0).cancelAll 0 .shutdown := by
  rw [State.unbindOthers_eq]
  exact List.foldl_append

theorem State.unbindOthers_shut (s : State) :
    State.EpsShut (s.epList.filter fun i => decide (i ≠ 0)) s s.unbindOthers := by
  rw [State.unbindOthers_eq]
  exact .forEps State.unbindEp_shut State.unbindEp_other s.others_nodup s

theorem State.unbindEps_shut (s : State) : State.EpsShut s.unbindList s s.unbindEps :=
  .forEps State.unbindEp_shut State.unbindEp_other s.unbindList_nodup s

theorem State.unbindEps_mem (s : State) : s.unbindEps.mem = s.unbindOthers.mem := by
  rw [State.unbindEps_eq, State.cancelAll_mem]
  rfl

/-- EP0 masked and with its queue cancelled (R162). -/
def Endpoint.silenced (e : Endpoint) : Endpoint :=
  { e with
    queue := []
    txnullpkt := false
    irqEn := false
    ctl := { e.ctl with txdoneIe := false, rxrdyIe := false, stallsentIe := false, setupIe := false }
    chan := { e.chan with ie := false } }

/-- An endpoint's record after its turn. -/
def Endpoint.Unbound (i : EpIx) (e e' : Endpoint) : Prop :=
  (i = 0 → e' = e.silenced) ∧ (i ≠ 0 → ∃ rx, e' = e.disabled rx)

theorem State.unbindEp_ep_same (i : EpIx) (s : State) : (s.ep i).Unbound i ((s.unbindEp i).ep i) := by
  unfold State.unbindEp
  refine ⟨fun h0 => ?_, fun h0 => ?_⟩
  · subst h0
    rw [if_pos rfl, State.cancelAll_ep_same, State.maskEpIrq_ep, if_pos rfl]
    rfl
  · obtain ⟨rx, -, ep⟩ := s.disableEp_ep_same i
    exact ⟨rx, by rw [if_neg h0, ep]⟩

theorem State.unbindEps_ep (pos : 1 ≤ s.cfg.numEp) (j : EpIx) :
    (s.validEp j = false → s.unbindEps.ep j = s.ep j) ∧
      (s.validEp j = true → (s.ep j).Unbound j (s.unbindEps.ep j)) := by
  have each := State.forEps_ep State.unbindEp_other State.unbindEp_ep_same s.unbindList_nodup s j
  rw [State.mem_unbindList pos] at each
  exact ⟨fun hv => each.1 (by simp [hv]), each.2⟩

/-! ### UNBIND -/

theorem State.modEp_of_fixed {f : Endpoint → Endpoint} (fixed : f (s.ep i) = s.ep i) : s.modEp i f = s := by
  refine State.eq_of_ep rfl fun j => ?_
  by_cases hj : j = i
  · rw [hj, State.modEp_ep_same, fixed]
  · rw [State.modEp_ep_other _ _ _ _ hj]

/-- EP0 leaves its transfer and is unmasked, unless it is disabled (R162; assumption 10). -/
def Endpoint.letOn (e : Endpoint) : Endpoint := if e.state ≠ .disabled then e.withdrawn.unmasked 0 false else e

/-- What UNBIND leaves (R162). -/
def State.unbound (s : State) : State :=
  ((s.unbindEps.modEp 0 Endpoint.letOn).modDev fun d => { d with driver := nullRef }).answer .ok

theorem exec_unbind_bound (bound : s.dev.driver ≠ nullRef) : exec .unbind s = .next s.unbound := by
  have last : (if (s.unbindEps.ep 0).state ≠ .disabled then (s.unbindEps.postCancel 0).unmaskEpIrq 0 else s.unbindEps) =
      s.unbindEps.modEp 0 Endpoint.letOn := by
    rw [State.postCancel_eq, State.unmaskEpIrq_eq, State.modEp_modEp]
    split
    · next on => exact State.modEp_congr (if_pos on).symm
    · next off => exact (State.modEp_of_fixed (if_neg off)).symm
  rw [State.unbound, ← last, State.unbindEps_eq]
  exact if_neg bound

theorem State.unbound_rest (s : State) : s.unbound = { s with
    eps := s.unbound.eps, reqs := s.unbound.reqs, cbList := s.unbound.cbList, mem := s.unbound.mem
    draws := s.unbound.draws, ret := s.unbound.ret
    intPending := { s.intPending with dma := s.unbound.intPending.dma }
    dev := { s.dev with driver := nullRef, rxpending := s.unbound.dev.rxpending } } :=
  congrArg (fun u : State => ((u.modEp 0 Endpoint.letOn).modDev fun d => { d with driver := nullRef }).answer .ok)
    s.unbindEps_shut.frame.eq

theorem State.unbound_ep_zero (pos : 1 ≤ s.cfg.numEp) : s.unbound.ep 0 = (s.ep 0).silenced.letOn := by
  rw [← ((State.unbindEps_ep pos 0).2 (State.validEp_zero pos)).1 rfl]
  exact State.modEp_ep_same s.unbindEps 0 Endpoint.letOn

theorem State.unbound_ep_valid (pos : 1 ≤ s.cfg.numEp) (h0 : i ≠ 0) (hv : s.validEp i = true) :
    ∃ rx, s.unbound.ep i = (s.ep i).disabled rx := by
  obtain ⟨rx, ep⟩ := ((State.unbindEps_ep pos i).2 hv).2 h0
  exact ⟨rx, (State.modEp_ep_other s.unbindEps 0 i Endpoint.letOn h0).trans ep⟩

theorem State.unbound_ep_invalid (pos : 1 ≤ s.cfg.numEp) (hv : s.validEp i = false) : s.unbound.ep i = s.ep i := by
  have h0 : i ≠ 0 := fun h0 => by rw [h0, State.validEp_zero pos] at hv; cases hv
  exact (State.modEp_ep_other s.unbindEps 0 i Endpoint.letOn h0).trans ((State.unbindEps_ep pos i).1 hv)

/-- What EP0 keeps and where it is left: out of a transfer, and with its interrupts on unless it is disabled. -/
theorem Endpoint.letOn_silenced (e : Endpoint) :
    e.silenced.letOn.reserved = e.reserved ∧ e.silenced.letOn.queue = [] ∧
      e.silenced.letOn.state = (if e.state = .sending ∨ e.state = .receiving then .idle else e.state) ∧
      e.silenced.letOn.irqEn = decide (e.state ≠ .disabled) := by
  unfold Endpoint.letOn Endpoint.silenced
  split
  · next on => exact ⟨rfl, rfl, rfl, (decide_eq_true on).symm⟩
  · next off =>
    have off := not_not.mp off
    dsimp only at off ⊢
    rw [off]
    exact ⟨rfl, rfl, rfl, rfl⟩

/-- Settles O26: the endpoints are shut down one after another (`State.unbindEps_shut`), EP0 last, and EP0 is let on. -/
theorem unbindShutsEverythingDown : Obligations.UnbindShutsEverythingDown := by
  intro s pos
  refine ⟨fun unbound => if_pos unbound, fun bound => ?_⟩
  have shut := s.unbindEps_shut
  obtain ⟨reserved, queue, state, irqEn⟩ := (s.ep 0).letOn_silenced
  refine ⟨_, exec_unbind_bound bound, rfl, rfl, fun j => ?_, fun j h0 hv => ?_, fun j hv => State.unbound_ep_invalid pos hv,
    ?_, ?_, ?_, ?_, s.unbound_rest, fun h hh => ?_, fun j h hv hh known => ?_, fun a outside => ?_⟩
  · cases hv : s.validEp j with
    | false => rw [State.unbound_ep_invalid pos hv]
    | true =>
      by_cases h0 : j = 0
      · rw [h0, State.unbound_ep_zero pos, reserved]
      · obtain ⟨rx, ep⟩ := State.unbound_ep_valid pos h0 hv
        rw [ep]
        rfl
  · obtain ⟨rx, ep⟩ := State.unbound_ep_valid pos h0 hv
    rw [ep]
    exact ⟨rfl, rfl, rfl, rfl⟩
  · rw [State.unbound_ep_zero pos, queue]
  · rw [State.unbound_ep_zero pos, state]
    simp [State.moving]
  · rw [State.unbound_ep_zero pos, irqEn]
  · have calls := shut.calls
    rw [State.unbindList, List.flatMap_append, List.flatMap_singleton, ← List.append_assoc] at calls
    exact calls
  · exact shut.untouched h fun j hj => hh j ((State.mem_unbindList pos j).mp hj)
  · exact shut.done j h ((State.mem_unbindList pos j).mpr hv) hh known
  · have same : s.unbound.mem = s.unbindOthers.mem := s.unbindEps_mem
    rw [same]
    exact s.unbindOthers_shut.memory a fun j hj =>
      outside j ((s.mem_others j).mp hj).1 ((s.mem_others j).mp hj).2

end Sys2Proof.Machine
end

section
/-! SUPPORT. A step's standing: which endpoints are reserved, and the device's state with the one saved for a resume. Nearly
every procedure leaves it as it is; what the few others may do to it is `Evolves`. -/

namespace Sys2Proof.Machine

variable {s t u : State} {i : EpIx}

/-! ### The standing of a state -/

/-- Which endpoints are reserved, the device's state, and the state saved for a resume. -/
def State.standing (s : State) : (EpIx → Bool) × DevState × DevState :=
  (fun e => (s.ep e).reserved, s.dev.state, s.dev.prevstate)

theorem EpFrame.standing {hs : List Ref} (F : EpFrame i hs s t) : t.standing = s.standing := by
  have reserved : ∀ e, (t.ep e).reserved = (s.ep e).reserved := fun e => by
    by_cases he : e = i
    · rw [he, F.reserved]
    · rw [F.other e he]
  unfold State.standing
  rw [funext reserved, F.dev.state, F.dev.prevstate]

theorem State.modEp_standing (s : State) (i : EpIx) {f : Endpoint → Endpoint} (hf : ∀ e, (f e).reserved = e.reserved) :
    (s.modEp i f).standing = s.standing := by
  have reserved : ∀ e, ((s.modEp i f).ep e).reserved = (s.ep e).reserved := fun e => by
    rw [State.modEp_ep]
    split
    · next he => rw [hf, he]
    · rfl
  exact Prod.ext (funext reserved) rfl

theorem State.modSta_standing (s : State) (i : EpIx) (f : EpSta → EpSta) : (s.modSta i f).standing = s.standing :=
  s.modEp_standing i fun _ => rfl

theorem State.setEpState_standing (s : State) (i : EpIx) (x : EpState) : (s.setEpState i x).standing = s.standing :=
  s.modEp_standing i fun _ => rfl

theorem State.notify_standing (s : State) (c : Callback) : (s.notify c).standing = s.standing := by
  rw [State.notify_eq]
  rfl

theorem State.forEps_standing {f : EpIx → State → State} (hf : ∀ i s, (f i s).standing = s.standing) (is : List EpIx)
    (s : State) : (s.forEps is f).standing = s.standing := by
  induction is generalizing s with
  | nil => rfl
  | cons i rest ih => exact (ih (f i s)).trans (hf i s)

/-- A procedure that may be skipped. -/
theorem State.standing_ite {c : Prop} [Decidable c] (ht : t.standing = u.standing) (hs : s.standing = u.standing) :
    (if c then t else s).standing = u.standing := by
  split
  · exact ht
  · exact hs

theorem State.startTransfer_standing (s : State) (i : EpIx) : (s.startTransfer i).standing = s.standing :=
  (EpFrame.start i s).startTransfer.standing

theorem State.stallEp_standing (s : State) (i : EpIx) : (s.stallEp i).standing = s.standing :=
  (EpFrame.start i s).stallEp.standing

theorem State.spinRwake_standing (k : Nat) (s : State) : (spinRwake k s).standing = s.standing := by
  have polled : ∀ v : State, v.pollRwake.standing = v.standing := fun v => by
    unfold State.pollRwake
    split
    · exact State.standing_ite rfl rfl
    · rfl
  induction k generalizing s with
  | zero => rfl
  | succ k ih => exact State.standing_ite ((ih _).trans (polled s)) rfl

/-! ### The requests on EP0 -/

theorem State.forward_standing (s : State) (out : Option (List Byte)) : (s.forward out).1.standing = s.standing := by
  unfold State.forward
  split <;> rfl

/-- A request's rule keeps the standing. -/
def StandingRule (rule : Option (List Byte) → State → State × Ep0Outcome) : Prop :=
  ∀ out s, (rule out s).1.standing = s.standing

theorem StandingRule.forward : StandingRule fun out s => s.forward out := fun out s => s.forward_standing out

/-- A request that is forwarded or decided at once. -/
theorem StandingRule.forwardIf {c : State → Prop} [∀ s, Decidable (c s)] (o : Ep0Outcome) :
    StandingRule fun out s => if c s then s.forward out else (s, o) := by
  intro out s
  dsimp only
  split
  · exact s.forward_standing out
  · rfl

theorem StandingRule.getStatus : StandingRule reqGetStatus := by
  intro out s
  unfold reqGetStatus
  dsimp only
  split_ifs
  · rfl
  · rfl
  · split <;> rfl
  · rfl
  · rfl

/-- The two feature requests: an operation on the endpoint named, or else a forwarded request. -/
theorem StandingRule.clearFeature : StandingRule reqClearFeature := by
  intro out s
  unfold reqClearFeature
  dsimp only
  split
  · split
    · rfl
    · exact (EpFrame.start _ s).resumeEp.standing
  · split
    · rfl
    · exact s.forward_standing out

theorem StandingRule.setFeature : StandingRule reqSetFeature := by
  intro out s
  unfold reqSetFeature
  dsimp only
  split
  · split
    · rfl
    · exact (EpFrame.start _ s).haltEp.standing
  · split
    · rfl
    · exact s.forward_standing out

theorem StandingRule.setAddress : StandingRule reqSetAddress := by
  intro out s
  unfold reqSetAddress
  dsimp only
  split <;> rfl

theorem StandingRule.requestRule (p : SetupPacket) : StandingRule (requestRule p) := by
  unfold Machine.requestRule
  split
  · exact .forward
  split
  · exact .getStatus
  · exact .clearFeature
  · exact .setFeature
  · exact .setAddress
  · exact .forwardIf _
  · exact .forwardIf _
  · exact .forwardIf _
  · exact .forwardIf _
  · exact .forward
  · exact .forward
  · exact fun _ _ => rfl
  · exact fun _ _ => rfl

theorem State.ep0Finish_standing (s : State) (p : SetupPacket) (o : Ep0Outcome) : (s.ep0Finish p o).standing = s.standing := by
  cases o with
  | success resp => exact ((((EpFrame.start 0 s).fifoWrite _).handTx).setEpState _).standing
  | address => exact ((((EpFrame.start 0 s).fifoWrite _).handTx).setEpState _).standing
  | dispatched => rfl
  | stall => exact s.stallEp_standing 0

theorem StandingRule.runRequest {rule : Option (List Byte) → State → State × Ep0Outcome} (hr : StandingRule rule)
    (out : Option (List Byte)) (s : State) : (s.runRequest rule out).standing = s.standing :=
  (State.ep0Finish_standing _ _ _).trans (hr out s)

theorem State.setupIdle_standing (s : State) (p : SetupPacket) : (s.setupIdle p).standing = s.standing := by
  have ended : (s.setupEnd p).standing = s.standing :=
    ((((EpFrame.start 0 (s.modDev fun d => { d with ctrl := p })).ackSetup.drain .ok).modEp _ rfl
      fun _ h => h).withdrawTx).standing
  exact ((s.setupEnd p).modEp_standing 0 (f := Endpoint.unstalled .idle) fun _ => rfl).trans ended

theorem State.setupAccept_standing {go : State → State} (hgo : ∀ v, (go v).standing = v.standing) (s : State)
    (p : SetupPacket) : (s.setupAccept p go).standing = s.standing := by
  have idle := s.setupIdle_standing p
  rw [State.setupAccept_eq]
  exact State.standing_ite
    (State.standing_ite ((State.stallEp_standing _ 0).trans idle) ((State.setEpState_standing _ 0 _).trans idle))
    ((hgo _).trans idle)

theorem State.discardSetup_standing (s : State) (n : Nat) : ((s.discardSetup i n).ackSetup i).standing = s.standing :=
  ((EpFrame.start i s).discardSetup n).ackSetup.standing

theorem StandingRule.receiveSetup {rule : Option (List Byte) → State → State × Ep0Outcome} (hr : StandingRule rule)
    (s : State) (p : SetupPacket) : (s.receiveSetup p rule).standing = s.standing :=
  State.standing_ite (s.discardSetup_standing 8)
    ((State.setupAccept_standing (hr.runRequest none) _ p).trans ((EpFrame.start 0 s).discardSetup 8).standing)

theorem State.setupReceived_standing (s : State) : s.setupReceived.standing = s.standing :=
  State.standing_ite (s.discardSetup_standing _) <|
    State.standing_ite ((State.stallEp_standing _ 0).trans (s.discardSetup_standing _)) <|
      (State.setupAccept_standing (fun v => (StandingRule.requestRule v.dev.ctrl).runRequest none v) _ _).trans
        ((EpFrame.start 0 s).discardSetup 8).standing

theorem State.startEp0_standing (s : State) : s.startEp0.standing = s.standing :=
  State.standing_ite (s.startTransfer_standing 0) rfl

theorem State.ep0DataOutPacket_standing (s : State) : s.ep0DataOutPacket.standing = s.standing := by
  unfold State.ep0DataOutPacket
  extract_lets c n r s1
  have stored : s1.standing = s.standing :=
    (EpFrame.start 0 _).releaseRx.standing.trans ((EpFrame.start 0 s).fifoReadRx n.toNat).standing
  refine State.standing_ite ?_ stored
  exact (State.startEp0_standing _).trans <| ((StandingRule.requestRule _).runRequest _ _).trans <|
    (State.setEpState_standing s1 0 .idle).trans stored

/-! ### What may change it -/

/-- The device is neither `Attached` nor resumes to it. -/
def Device.unattached (d : Device) : Prop := d.state ≠ .attached ∧ d.prevstate ≠ .attached

/-- From `s` to `t` only the endpoints of `free` give their reservation up, the device becomes `Configured` only if
`conf` holds, and it never becomes `Attached`. -/
structure Evolves (free : EpIx → Prop) (conf : Prop) (s t : State) : Prop where
  reserved : ∀ e, ¬free e → (s.ep e).reserved = true → (t.ep e).reserved = true
  configured : t.dev.state = .configured → s.dev.state = .configured ∨ conf
  unattached : s.dev.unattached → t.dev.unattached

section
variable {free : EpIx → Prop} {conf : Prop}

theorem Evolves.trans (a : Evolves free conf s t) (b : Evolves free conf t u) : Evolves free conf s u where
  reserved e he r := b.reserved e he (a.reserved e he r)
  configured c := (b.configured c).elim a.configured .inr
  unattached d := b.unattached (a.unattached d)

theorem Evolves.of_standing (h : t.standing = s.standing) : Evolves free conf s t where
  reserved e _ r := (congrFun (congrArg Prod.fst h) e).trans r
  configured c := .inl ((congrArg (·.2.1) h).symm.trans c)
  unattached d := ⟨fun a => d.1 ((congrArg (·.2.1) h).symm.trans a), fun a => d.2 ((congrArg (·.2.2) h).symm.trans a)⟩

/-- The device takes a state that is neither `Attached` nor, unless `conf` holds, `Configured`. -/
theorem Evolves.of_state (reserved : ∀ e, (t.ep e).reserved = (s.ep e).reserved) (prev : t.dev.prevstate = s.dev.prevstate)
    (configured : t.dev.state = .configured → conf) (attached : t.dev.state ≠ .attached) : Evolves free conf s t where
  reserved e _ r := (reserved e).trans r
  configured c := .inr (configured c)
  unattached d := ⟨attached, fun a => d.2 (prev.symm.trans a)⟩

end

/-! ### The device state machine -/

section
variable {free : EpIx → Prop} {conf : Prop}

theorem State.disableAfterReset_standing (s : State) (i : EpIx) : (s.disableAfterReset i).standing = s.standing := by
  unfold State.disableAfterReset
  exact s.modEp_standing i fun _ => rfl

theorem State.defaultEp0_standing (s : State) : s.defaultEp0.standing = s.standing := by
  unfold State.defaultEp0
  extract_lets s1
  have programmed : s1.standing = s.standing := s.modEp_standing 0 fun _ => rfl
  exact ((EpFrame.start 0 s1).unmaskEpIrq.setEpState .idle).standing.trans programmed

theorem State.busReset_evolves (s : State) : Evolves free conf s s.busReset := by
  have noted : s.noteBusReset.standing = s.standing := State.notify_standing _ _
  have shut : s.noteBusReset.resetAll.standing = s.standing :=
    (State.forEps_standing (fun i v => (EpFrame.start i v).resetEp.standing) _ _).trans noted
  have disabled : s.noteBusReset.resetAll.disableOthers.standing = s.standing :=
    (State.forEps_standing (fun i v => v.disableAfterReset_standing i) _ _).trans shut
  rw [State.busReset_eq]
  exact (Evolves.of_standing ((State.defaultEp0_standing _).trans disabled)).trans (.of_state (fun _ => rfl) rfl nofun nofun)

theorem State.applyAddress_evolves (s : State) : Evolves free conf s s.applyAddress := by
  have moved : Evolves free conf s s.withAddress := by
    refine .of_state (fun _ => rfl) rfl (fun c => ?_) ?_
    · unfold State.withAddress at c
      dsimp only at c
      split at c <;> cases c
    · unfold State.withAddress
      dsimp only
      split <;> nofun
  rw [State.applyAddress_eq]
  exact moved.trans (.of_standing ((State.startTransfer_standing _ 0).trans (State.setEpState_standing _ 0 .idle)))

theorem State.suspend_evolves (s : State) : Evolves free conf s s.suspend := by
  unfold State.suspend
  dsimp only
  rw [State.notify_eq]
  split
  · exact .of_standing rfl
  · exact ⟨fun _ _ r => r, nofun, fun d => ⟨nofun, d.1⟩⟩

end

/-- Resuming makes the device what it was, which is the only way to `Configured` here. -/
theorem State.deviceResume_evolves {free : EpIx → Prop} (s : State) :
    Evolves free (s.dev.prevstate = .configured) s s.deviceResume := by
  rw [State.deviceResume_eq]
  exact ⟨fun _ _ r => r, fun c => .inr c, fun d => ⟨d.2, d.2⟩⟩

/-- The device sleeps, and was `Configured` before. -/
def State.resumesConfigured (s : State) : Prop := s.dev.state = .suspended ∧ s.dev.prevstate = .configured

theorem State.resume_evolves {free : EpIx → Prop} (s : State) : Evolves free s.resumesConfigured s s.resume := by
  unfold State.resume
  dsimp only
  split
  · next asleep =>
    have resumed := State.deviceResume_evolves (free := free)
      { s with intPending := { s.intPending with resume := false } }
    exact ⟨resumed.reserved, fun c => (resumed.configured c).imp id fun prev => ⟨asleep, prev⟩, resumed.unattached⟩
  · exact .of_standing rfl

theorem execWakeup_evolves {free : EpIx → Prop} (s : State) :
    NextHas (Evolves free s.resumesConfigured s) (execWakeup s) := by
  refine .next (Evolves.trans (t := s.signalling) ?_ (.of_standing (State.spinRwake_standing _ _)))
  unfold State.signalling
  split
  · next asleep =>
    have resumed := s.deviceResume_evolves (free := free)
    exact ⟨resumed.reserved, fun c => (resumed.configured c).imp id fun prev => ⟨asleep, prev⟩, resumed.unattached⟩
  · exact .of_standing rfl

/-- An accepted SET_CONFIGURATION makes the device `Configured` only from `Address` and for a value other than 0. -/
theorem State.configureDevice_evolves {free : EpIx → Prop} (s : State) :
    Evolves free (s.dev.state = .address ∧ s.dev.ctrl.value.extractLsb' 0 8 ≠ 0) s s.configureDevice := by
  unfold State.configureDevice
  split
  · next h =>
    refine ⟨fun _ _ r => r, fun c => ?_, fun d => ⟨?_, d.2⟩⟩
    · rcases h with address | configured
      · refine .inr ⟨address, fun zero => ?_⟩
        simp [State.modDev, zero] at c
      · exact .inl configured
    · show (if _ then DevState.configured else .address) ≠ .attached
      split <;> nofun
  · exact .of_standing rfl

/-- `on_setup` has accepted a SET_CONFIGURATION with a value other than 0 at `Address` (R237, R290). -/
def State.acceptsConfiguration (s : State) (r : Result) : Prop :=
  r = .ok ∧ s.dev.state = .address ∧ s.dev.ctrl.rtype = 0 ∧ s.dev.ctrl.request = codeSetConfiguration ∧
    s.dev.ctrl.value.extractLsb' 0 8 ≠ 0

theorem State.onSetupReturn_evolves {free : EpIx → Prop} (s : State) (r : Result) :
    Evolves free (s.acceptsConfiguration r) s (s.onSetupReturn r) := by
  unfold State.onSetupReturn
  split
  · exact .of_standing (s.stallEp_standing 0)
  · next ok =>
    split
    · next request =>
      have configured := s.configureDevice_evolves (free := free)
      exact ⟨configured.reserved, fun c => (configured.configured c).imp id fun ⟨address, value⟩ =>
        ⟨not_not.mp ok, address, request.1, request.2, value⟩, configured.unattached⟩
    · exact .of_standing rfl

/-! ### The interrupt handlers -/

section
variable {free : EpIx → Prop} {conf : Prop}

theorem State.txDone_evolves (s : State) (i : EpIx) : Evolves free conf s (s.txDone i) := by
  have written : Evolves free conf s (s.writeProcess i) := .of_standing (EpFrame.start i s).writeProcess.standing
  have masked := (EpFrame.start i s).modCtl fun c => { c with txdoneIe := false }
  unfold State.txDone
  split
  · split
    · dsimp only
      split
      · exact .of_standing masked.standing
      · split
        · exact .of_standing (masked.completeAndStart .ok).standing
        · exact .of_standing masked.standing
    · exact written
  · exact written
  · exact s.applyAddress_evolves
  all_goals exact .of_standing rfl

theorem State.rxReady_standing (s : State) (i : EpIx) : (s.rxReady i).standing = s.standing :=
  State.standing_ite (EpFrame.start i s).readPacket.standing <|
    State.standing_ite (State.standing_ite s.ep0DataOutPacket_standing (EpFrame.start 0 s).releaseRx.standing) <|
      State.standing_ite (EpFrame.start i s).releaseRx.standing (EpFrame.start i s).holdRx.standing

theorem State.setupStatus_standing (s : State) (i : EpIx) : (s.setupStatus i).standing = s.standing :=
  State.standing_ite s.setupReceived_standing (s.discardSetup_standing _)

theorem State.epInterrupt_evolves (s : State) (i : EpIx) : Evolves free conf s (s.epInterrupt i) := by
  unfold State.epInterrupt
  extract_lets bits s1 s2 s3
  have tx : Evolves free conf s s1 := by
    unfold s1
    split
    · exact (Evolves.of_standing (s.modSta_standing i _)).trans ((s.ackTxdone i).txDone_evolves i)
    · exact .of_standing rfl
  have rx : s2.standing = s1.standing := State.standing_ite (s1.rxReady_standing i) rfl
  have stall : s3.standing = s2.standing := State.standing_ite (EpFrame.start i s2).ackStallsent.stallSent.standing rfl
  have setup : (if bits.setup then s3.setupStatus i else s3).standing = s3.standing :=
    State.standing_ite (s3.setupStatus_standing i) rfl
  exact tx.trans (.of_standing (setup.trans (stall.trans rx)))

end

/-- A handler makes the device `Configured` only if it is a resume's. -/
theorem State.handle_evolves {free : EpIx → Prop} (s : State) (b : Source) :
    Evolves free (b = .resume ∧ s.resumesConfigured) s (s.handle b) := by
  cases b with
  | suspend => exact s.suspend_evolves
  | sof => exact .of_standing rfl
  | resume =>
    have resumed := s.resume_evolves (free := free)
    exact ⟨resumed.reserved, fun c => (resumed.configured c).imp id fun r => ⟨rfl, r⟩, resumed.unattached⟩
  | busReset => exact s.busReset_evolves
  | upResume => exact .of_standing rfl
  | dma c => exact .of_standing (EpFrame.start c s).dmaInterrupt.standing
  | ep i => exact s.epInterrupt_evolves i

end Sys2Proof.Machine
end

section
/-! SUPPORT. The instructions, the handlers and the steps by what they may do to the standing: a reservation is given up only by
FREE_ENDPOINT (O22), and the device becomes `Configured` only by an accepted request or by resuming (O59). -/

namespace Sys2Proof.Machine

variable {s t : State} {i : EpIx}

/-! ### Outcomes that keep the standing -/

section
variable {free : EpIx → Prop} {conf : Prop} {o : Host.Outcome State Fault Refusal}

theorem NextHas.standing (h : t.standing = s.standing) : NextHas (Evolves free conf s) (.next t) := .next (.of_standing h)

/-- An operation that fails a check only answers. -/
theorem NextHas.guarded {c : Prop} [Decidable c] {r : Result} (H : NextHas (Evolves free conf s) o) :
    NextHas (Evolves free conf s) (if c then .next (s.answer r) else o) := by
  split
  · exact .standing rfl
  · exact H

theorem State.answer_standing (s : State) (r : Result) : (s.answer r).standing = s.standing := rfl

theorem EpFrame.answers {hs : List Ref} (F : EpFrame i hs s t) (r : Result) :
    NextHas (Evolves free conf s) (.next (t.answer r)) := .standing F.standing

/-! ### The class driver's operations -/

theorem execAllocateRequest_evolves (s : State) : NextHas (Evolves free conf s) (execAllocateRequest s) := by
  unfold execAllocateRequest
  dsimp only
  split <;> exact .standing rfl

theorem execFreeRequest_evolves (s : State) (i : EpIx) (h : Ref) : NextHas (Evolves free conf s) (execFreeRequest i h s) := by
  refine .guarded ?_
  split
  · exact .fault _
  · exact .standing rfl

theorem execSubmit_evolves (s : State) (i : EpIx) (h : Ref) : NextHas (Evolves free conf s) (execSubmit i h s) := by
  have queued : (s.queued i h).standing = s.standing := (s.queued_frame i h).standing
  rcases execSubmit_cases s i h with ⟨r, refused⟩ | ⟨-, accepted⟩
  · rw [refused]
    exact .standing rfl
  · rw [accepted]
    exact .standing ((State.answer_standing _ .ok).trans
      (State.standing_ite ((State.startTransfer_standing _ i).trans queued) queued))

theorem execCancel_evolves (s : State) (i : EpIx) (h : Ref) : NextHas (Evolves free conf s) (execCancel i h s) := by
  have shut := ((EpFrame.start i s).maskEpIrq.dmaStopIfBusy.cancelAll .shutdown).postCancel
  exact .guarded (.standing ((State.answer_standing _ .ok).trans
    (State.standing_ite shut.unmaskEpIrq.standing shut.standing)))

/-- Reserving an endpoint gives none up. -/
theorem State.reserveEp_evolves (s : State) (k : EpIx) (dirIn : Bool) (ty : EpType) :
    Evolves free conf s (s.reserveEp k dirIn ty) where
  reserved e _ r := by
    by_cases he : e = k
    · rw [he, State.reserveEp_ep_same]
    · rw [State.reserveEp_ep_other s dirIn ty he, r]
  configured := .inl
  unattached := id

theorem execAllocateEndpoint_evolves (s : State) (n : EpIx) (dirIn : Bool) (ty : EpType) :
    NextHas (Evolves free conf s) (execAllocateEndpoint n dirIn ty s) := by
  unfold execAllocateEndpoint
  split
  · split
    · exact .next (s.reserveEp_evolves n dirIn ty)
    · exact .standing rfl
  · split
    · exact .next (s.reserveEp_evolves _ dirIn ty)
    · exact .standing rfl

theorem execSetPullup_evolves (s : State) (b : Bool) : NextHas (Evolves free conf s) (execSetPullup b s) := by
  unfold execSetPullup
  dsimp only
  split
  · exact .next (.of_state (fun _ => rfl) rfl nofun nofun)
  · exact .standing rfl

theorem execUnbind_evolves (s : State) : NextHas (Evolves free conf s) (execUnbind s) := by
  unfold execUnbind
  split
  · exact .standing rfl
  · extract_lets s1 s2 s3
    have disabled : s1.standing = s.standing :=
      State.forEps_standing (fun i v => (EpFrame.start i v).disableEp.standing) _ s
    have cancelled : EpFrame 0 (s1.ep 0).queue s1 s2 := (EpFrame.start 0 s1).maskEpIrq.cancelAll .shutdown
    have letOn : s3.standing = s1.standing :=
      State.standing_ite cancelled.postCancel.unmaskEpIrq.standing cancelled.standing
    clear_value s3
    exact .standing ((State.answer_standing _ .ok).trans (letOn.trans disabled))

/-! ### The stimuli -/

theorem State.atEp_standing {f : State → State} (hf : (f s).standing = s.standing) :
    (s.atEp i f).standing = s.standing := State.standing_ite hf rfl

theorem State.atChan_standing {f : State → State} (hf : (f s).standing = s.standing) :
    (s.atChan i f).standing = s.standing := State.standing_ite hf rfl

theorem execBusBusreset_evolves (s : State) : NextHas (Evolves free conf s) (execBusBusreset s) :=
  .standing (State.forEps_standing (f := fun i s => s.modEp i Endpoint.dropSession)
    (fun i v => v.modEp_standing i fun _ => rfl) s.epList s)

theorem execBusSetup_evolves (s : State) (i : EpIx) (p : SetupPacket) : NextHas (Evolves free conf s) (execBusSetup i p s) :=
  .standing (State.atEp_standing (s.modEp_standing i fun _ => rfl))

theorem execBusRxpkt_evolves (s : State) (i : EpIx) (bytes : List Byte) :
    NextHas (Evolves free conf s) (execBusRxpkt i bytes s) := by
  unfold execBusRxpkt
  split
  · exact .refused _
  · split
    · exact .standing rfl
    · exact .standing (State.atEp_standing (s.modEp_standing i fun _ => rfl))

theorem execBusTxdone_evolves (s : State) (i : EpIx) : NextHas (Evolves free conf s) (execBusTxdone i s) :=
  .standing <| State.atEp_standing <| (State.modSta_standing _ i _).trans <|
    State.standing_ite (EpFrame.start i s).sendTx.standing rfl

theorem execBusDmaEob_evolves (s : State) (c : EpIx) (rem : BitVec 16) :
    NextHas (Evolves free conf s) (execBusDmaEob c rem s) := by
  refine .standing (State.atChan_standing ?_)
  dsimp only
  split
  · exact (((EpFrame.start c s).moveSlice _).modChan _).standing
  · exact ((EpFrame.start c s).scrambleSlice.modChan _).standing

end

/-! ### The two operations with a way of their own -/

/-- FREE_ENDPOINT gives up one reservation. -/
theorem execFreeEndpoint_evolves {conf : Prop} (s : State) (i : EpIx) :
    NextHas (Evolves (· = i) conf s) (execFreeEndpoint i s) := by
  refine .guarded (.next ((Evolves.of_standing (EpFrame.start i s).disableEp.standing).trans ⟨fun e he r => ?_, .inl, id⟩))
  show (((s.disableEp i).modEp i fun e => { e with reserved := false }).ep e).reserved = true
  rw [State.modEp_ep_other _ i e _ he, r]

/-- An instruction gives up only the reservation FREE_ENDPOINT names, and makes the device `Configured` only if it is
WAKEUP. -/
theorem exec_evolves (ins : Instr) (s : State) :
    NextHas (Evolves (fun e => ins = .freeEndpoint e) (ins = .wakeup ∧ s.resumesConfigured) s) (exec ins s) := by
  cases ins with
  | configureEndpoint i d =>
    exact .guarded (.guarded (.guarded (.guarded (((EpFrame.start i s).programEp d).startTransfer.answers .ok))))
  | disableEndpoint i => exact .guarded ((EpFrame.start i s).disableEp.answers .ok)
  | allocateRequest => exact execAllocateRequest_evolves s
  | freeRequest i h => exact execFreeRequest_evolves s i h
  | submit i h => exact execSubmit_evolves s i h
  | cancel i h => exact execCancel_evolves s i h
  | stall i => exact .guarded ((EpFrame.start i s).stallEp.answers .ok)
  | resumeStall i => exact .guarded ((EpFrame.start i s).resumeEp.answers .ok)
  | allocateEndpoint n b ty => exact execAllocateEndpoint_evolves s n b ty
  | freeEndpoint i =>
    intro t next
    have freed := execFreeEndpoint_evolves (conf := False) s i t next
    exact ⟨fun e he => freed.reserved e fun same => he (same ▸ rfl), fun c => (freed.configured c).imp id False.elim,
      freed.unattached⟩
  | getFrameNumber => exact .standing rfl
  | wakeup =>
    intro t next
    have woken := execWakeup_evolves (free := fun e => Instr.wakeup = .freeEndpoint e) s t next
    exact ⟨woken.reserved, fun c => (woken.configured c).imp id fun r => ⟨rfl, r⟩, woken.unattached⟩
  | setSelfPowered b => exact .standing rfl
  | setPullup b => exact execSetPullup_evolves s b
  | bind d => exact .guarded (.guarded (.standing rfl))
  | unbind => exact execUnbind_evolves s
  | invalidCommand w => exact .standing rfl
  | busBusreset => exact execBusBusreset_evolves s
  | busSuspend => exact .standing rfl
  | busResume => exact .standing rfl
  | busSof f => exact .standing rfl
  | busUpresume => exact .standing rfl
  | busSetup i p => exact execBusSetup_evolves s i p
  | busRxpkt i bytes => exact execBusRxpkt_evolves s i bytes
  | busTxdone i => exact execBusTxdone_evolves s i
  | busStallsent i => exact .standing (State.atEp_standing (s.modSta_standing i _))
  | busDmaEob c rem => exact execBusDmaEob_evolves s c rem
  | busDmaEoc c => exact .standing (State.atChan_standing (((EpFrame.start c s).moveSlice _).modChan _).standing)
  | busDmaErr c => exact .standing (State.atChan_standing ((EpFrame.start c s).scrambleSlice.modChan _).standing)
  | busRwakeDone => exact .standing rfl
  | setupGetStatus a => exact .standing (StandingRule.getStatus.receiveSetup s _)
  | setupClearFeature a => exact .standing (StandingRule.clearFeature.receiveSetup s _)
  | setupSetFeature a => exact .standing (StandingRule.setFeature.receiveSetup s _)
  | setupSetAddress a => exact .standing (StandingRule.setAddress.receiveSetup s _)
  | setupGetDescriptor a | setupSetDescriptor a | setupGetConfiguration a | setupSetConfiguration a =>
    exact .standing ((StandingRule.forwardIf .stall).receiveSetup s _)
  | setupGetInterface a | setupSetInterface a | setupNonstandardClass _ a | setupNonstandardVendor _ a
  | setupNonstandardReservedType _ a => exact .standing (StandingRule.forward.receiveSetup s _)
  | setupSynchFrame a | setupUnknownStandard _ a =>
    exact .standing (StandingRule.receiveSetup (fun _ _ => rfl) s _)

/-! ### Records and the agents -/

/-- No stimulus record spells FREE_ENDPOINT or WAKEUP (R95, R97). -/
theorem decode_stimulus_not_command {bytes more : List Byte} {ins : Instr} (hd : decode .stimulus bytes = .ok (ins, more)) :
    (∀ e, ins ≠ .freeEndpoint e) ∧ ins ≠ .wakeup := by
  change decodeStimulusBytes bytes = _ at hd
  unfold decodeStimulusBytes withIx withNat at hd
  split at hd
  · cases hd
  · split at hd <;> grind

theorem Evolves.mono {free free' : EpIx → Prop} {conf conf' : Prop} (E : Evolves free conf s t)
    (hf : ∀ e, free e → free' e) (hc : conf → conf') : Evolves free' conf' s t :=
  ⟨fun e he => E.reserved e (mt (hf e) he), fun c => (E.configured c).imp id hc, E.unattached⟩

/-- The same between two states of the same standing. -/
theorem Evolves.between {free free' : EpIx → Prop} {conf conf' : Prop} {u v : State} (E : Evolves free conf u v)
    (hs : u.standing = s.standing) (ht : t.standing = v.standing) (hf : ∀ e, free e → free' e) (hc : conf → conf') :
    Evolves free' conf' s t :=
  ((Evolves.of_standing hs).trans (E.mono hf hc)).trans (.of_standing ht)

/-- The next action of the environment is the command `ins`. -/
def State.commands (s : State) (ins : Instr) : Prop :=
  ∃ bytes later more, s.input = .cmd bytes :: later ∧ decode .command bytes = .ok (ins, more)

theorem runRecord_evolves (p : Port) (bytes : List Byte) (rest : List Input) (s : State) :
    NextHas (Evolves (fun e => ∃ more, decode p bytes = .ok (.freeEndpoint e, more))
      ((∃ more, decode p bytes = .ok (.wakeup, more)) ∧ s.resumesConfigured) s) (runRecord p bytes rest s) := by
  intro t next
  unfold runRecord at next
  split at next
  · next ins more decoded =>
    have run := exec_evolves ins { s with input := rest }
    cases he : exec ins { s with input := rest } with
    | next u =>
      rw [he] at next
      cases next
      exact (run u he).between rfl rfl (fun e same => ⟨more, same ▸ decoded⟩)
        fun ⟨same, resumes⟩ => ⟨⟨more, same ▸ decoded⟩, resumes⟩
    | fault f => rw [he] at next; cases next
    | refused r => rw [he] at next; cases next
  · cases next

theorem runCommand_evolves {bytes : List Byte} {rest : List Input} (hi : s.input = .cmd bytes :: rest) :
    NextHas (Evolves (fun e => s.commands (.freeEndpoint e)) (s.commands .wakeup ∧ s.resumesConfigured) s)
      (runRecord .command bytes rest s) := fun t next =>
  (runRecord_evolves .command bytes rest s t next).mono (fun _ ⟨more, hd⟩ => ⟨bytes, rest, more, hi, hd⟩)
    fun ⟨⟨more, hd⟩, resumes⟩ => ⟨⟨bytes, rest, more, hi, hd⟩, resumes⟩

theorem runStimulus_evolves {free : EpIx → Prop} {conf : Prop} (bytes : List Byte) (rest : List Input) (s : State) :
    NextHas (Evolves free conf s) (runRecord .stimulus bytes rest s) := fun t next =>
  (runRecord_evolves .stimulus bytes rest s t next).mono
    (fun e ⟨_, hd⟩ => absurd rfl ((decode_stimulus_not_command hd).1 e))
    fun ⟨⟨_, hd⟩, _⟩ => absurd rfl (decode_stimulus_not_command hd).2

/-- A pass may resume the device if a resume is the first source of it still pending. -/
theorem State.dispatchStep_evolves {free : EpIx → Prop} (s : State) (rest : List Source) (below : List Ctx) :
    Evolves free (rest.find? s.stillPending = some .resume ∧ s.resumesConfigured) s (s.dispatchStep rest below) := by
  unfold State.dispatchStep
  split
  · exact .of_standing (State.standing_ite rfl rfl)
  · next b later first =>
    refine (State.handle_evolves (free := free) { s with stack := .dispatch later :: below } b).between rfl rfl
      (fun _ => id) fun ⟨same, resumes⟩ => ⟨?_, resumes⟩
    rw [find?_of_dropWhile first, same]

/-- The class driver's `on_setup` returns `Ok` next, and the request is a SET_CONFIGURATION accepted at `Address`. -/
def State.acceptsNext (s : State) : Prop :=
  s.acceptsConfiguration .ok ∧
    ∃ c out below rest, s.stack = .active (.onSetup c out) :: below ∧ s.input = .ret .ok :: rest

theorem returnCallback_evolves {free : EpIx → Prop} {r : Result} {rest : List Input} (hi : s.input = .ret r :: rest) :
    Evolves free s.acceptsNext s (returnCallback r { s with input := rest }) := by
  unfold returnCallback
  split
  · next c out below hs =>
    refine (State.onSetupReturn_evolves (free := free) { s with input := rest, stack := below } r).between rfl rfl
      (fun _ => id) fun accepted => ?_
    obtain ⟨ok, request⟩ := accepted
    subst ok
    exact ⟨⟨rfl, request⟩, c, out, below, rest, hs, hi⟩
  · exact .of_standing rfl
  · exact .of_standing rfl

theorem pokeBytes_standing (a : Word) (bytes : List Byte) (s : State) : (pokeBytes a bytes s).standing = s.standing := by
  induction bytes generalizing a s with
  | nil => rfl
  | cons b rest ih => exact State.standing_ite (ih _ _) (ih _ _)

theorem environmentStep_evolves (s : State) :
    NextHas (Evolves (fun e => s.commands (.freeEndpoint e)) ((s.commands .wakeup ∧ s.resumesConfigured) ∨ s.acceptsNext) s)
      (environmentStep s) := by
  unfold environmentStep
  split
  · exact .standing (State.standing_ite rfl rfl)
  · next hi => exact fun t next => (runCommand_evolves hi t next).mono (fun _ => id) .inl
  · exact runStimulus_evolves _ _ s
  · exact .standing (State.standing_ite rfl rfl)
  · next hi => exact .next ((returnCallback_evolves hi).mono (fun _ => id) .inr)
  · unfold setRequest
    split
    · exact .fault _
    · exact .standing rfl
  · exact .standing (pokeBytes_standing _ _ _)

/-- A resume is the source the dispatcher handles next. -/
def State.resumeNext (s : State) : Prop :=
  ∃ rest below, s.stack = .dispatch rest :: below ∧ rest.find? s.stillPending = some .resume

/-- No engine code stands between two of its steps. -/
def State.quiet (s : State) : Prop := s.stack = [] ∨ ∃ c below, s.stack = .active c :: below

/-- A step gives up only the reservation that a FREE_ENDPOINT it runs names, and the device becomes `Configured` only by
resuming or by an accepted request. -/
theorem step_evolves (s : State) :
    NextHas (Evolves (fun e => s.commands (.freeEndpoint e))
      ((s.resumesConfigured ∧ (s.resumeNext ∨ (s.quiet ∧ s.commands .wakeup))) ∨ s.acceptsNext) s) (step s) := by
  have environment : s.quiet → NextHas (Evolves (fun e => s.commands (.freeEndpoint e))
      ((s.resumesConfigured ∧ (s.resumeNext ∨ (s.quiet ∧ s.commands .wakeup))) ∨ s.acceptsNext) s)
      (environmentStep s) := fun hq t next =>
    (environmentStep_evolves s t next).mono (fun _ => id) fun ways =>
      ways.imp (fun ⟨wakeup, resumes⟩ => ⟨resumes, .inr ⟨hq, wakeup⟩⟩) id
  unfold step machineStep
  split
  · exact .standing rfl
  · next rest below hs =>
    split
    · exact runStimulus_evolves _ _ s
    · refine .next (Evolves.mono (free := fun e => s.commands (.freeEndpoint e))
        ((s.dispatchStep_evolves rest below).trans (.of_standing rfl)) (fun _ => id) ?_)
      exact fun ⟨first, resumes⟩ => .inl ⟨resumes, .inl ⟨rest, below, hs, first⟩⟩
  · next c below hs => exact environment (.inr ⟨c, below, hs⟩)
  · next hs => exact environment (.inl hs)

/-! ### The obligations -/

/-- Settles O22: of what an instruction, a handler or a step may do to the reservations (`exec_evolves`,
`State.handle_evolves`, `step_evolves`) only FREE_ENDPOINT gives one up. -/
theorem reservationsAreKept : Obligations.ReservationsAreKept := by
  intro e s held
  refine ⟨fun ins t other next => ?_, fun b => ?_, fun t other next => ?_⟩
  · exact (exec_evolves ins s t next).reserved e other held
  · exact (s.handle_evolves (free := fun _ => False) b).reserved e id held
  · exact (step_evolves s t next).reserved e (fun ⟨bytes, rest, more, hi, hd⟩ => other bytes rest more hi hd) held

/-- Settles O59: `step_evolves` names every way to `Configured`. -/
theorem configuredOnlyByAcceptedRequest : Obligations.ConfiguredOnlyByAcceptedRequest := by
  intro s t next
  have evolved := step_evolves s t next
  refine ⟨fun configured => ?_, fun state prev => evolved.unattached ⟨state, prev⟩⟩
  rcases evolved.configured configured with before | ⟨⟨asleep, saved⟩, ways⟩ | ⟨⟨-, address, rtype, code, value⟩, returns⟩
  · exact .inl before
  · refine .inr (.inl ⟨asleep, saved, ways.imp ?_ id⟩)
    exact fun ⟨rest, below, hs, first⟩ => ⟨rest, below, hs, first, List.find?_some first⟩
  · exact .inr (.inr ⟨address, rtype, code, value, returns⟩)

end Sys2Proof.Machine
end

section
/-! SUPPORT. The OUT data stage of a control request (O47): which of the three outcomes each request has after its data, what
collecting a packet leaves, and the final actions from there. -/

namespace Sys2Proof.Machine

variable {s t u v : State} {p : SetupPacket} {out : Option (List Byte)}

/-! ### The requests with OUT data, by their outcome (R234, R240) -/

/-- A standard request that announces OUT data. -/
def standardOut (p : SetupPacket) : Prop := p.rtype = 0 ∧ p.dirIn = false ∧ p.length ≠ 0

/-- A feature request. -/
def featureRequest (p : SetupPacket) : Prop := p.request = 0x01 ∨ p.request = 0x03

/-- The recipient and the value of the device's TEST_MODE. -/
def testMode (p : SetupPacket) : Prop := p.recip = 0 ∧ p.value = 2

/-- After its OUT data the request goes to the class driver. -/
def forwardedOut (p : SetupPacket) : Prop :=
  p.rtype ≠ 0 ∨ (standardOut p ∧ (((p.request = 0x06 ∨ p.request = 0x07) ∧ p.recip = 0) ∨
    (p.request = 0x08 ∧ p.recip = 0 ∧ p.value = 0 ∧ p.index = 0 ∧ p.length = 1) ∨ p.request = 0x0A ∨ p.request = 0x0B ∨
    (featureRequest p ∧ p.recip ≠ 2 ∧ ¬testMode p)))

/-- After its OUT data the request is answered with a zero-length packet. -/
def answeredOut (p : SetupPacket) : Prop :=
  standardOut p ∧ (p.request = 0x0C ∨ (featureRequest p ∧ testMode p))

theorem standardOut.forwarded_iff (standard : standardOut p) : forwardedOut p ↔
    ((p.request = 0x06 ∨ p.request = 0x07) ∧ p.recip = 0) ∨
    (p.request = 0x08 ∧ p.recip = 0 ∧ p.value = 0 ∧ p.index = 0 ∧ p.length = 1) ∨ p.request = 0x0A ∨ p.request = 0x0B ∨
    (featureRequest p ∧ p.recip ≠ 2 ∧ ¬testMode p) := by
  obtain ⟨rtype, dir, length⟩ := id standard
  simp only [forwardedOut, rtype, ne_eq, not_true_eq_false, standard, true_and, false_or]

theorem standardOut.answered_iff (standard : standardOut p) : answeredOut p ↔
    p.request = 0x0C ∨ (featureRequest p ∧ testMode p) := and_iff_right standard

/-- What a request's rule decides after the OUT data of `p`: the class driver's, a zero-length packet, or a stall. -/
def DecidesOut (p : SetupPacket) (rule : Option (List Byte) → State → State × Ep0Outcome) : Prop :=
  ∀ out (v : State), v.dev.ctrl = p → (forwardedOut p → rule out v = v.forward out) ∧
    (answeredOut p → rule out v = (v, .success [])) ∧ (¬forwardedOut p → ¬answeredOut p → rule out v = (v, .stall))

theorem reqNonstandard_decides (other : p.rtype ≠ 0) : DecidesOut p reqNonstandard := fun _ _ _ =>
  ⟨fun _ => rfl, fun answered => absurd answered.1.1 other, fun none => absurd (.inl other) none⟩

/-- A request that no OUT data can belong to stalls. -/
theorem decidesOut_of_stall {rule : Option (List Byte) → State → State × Ep0Outcome} (noForward : ¬forwardedOut p)
    (noAnswer : ¬answeredOut p) (stalls : ∀ out v, v.dev.ctrl = p → rule out v = (v, .stall)) : DecidesOut p rule :=
  fun out v ctrl => ⟨fun f => absurd f noForward, fun a => absurd a noAnswer, fun _ _ => stalls out v ctrl⟩

/-- A request that the class driver answers when its checks `good` hold, and that stalls otherwise (R236). -/
theorem decidesOut_of_checks {rule : Option (List Byte) → State → State × Ep0Outcome} {good : Prop} [Decidable good]
    (forwards : forwardedOut p ↔ good) (noAnswer : ¬answeredOut p)
    (checks : ∀ out v, v.dev.ctrl = p → rule out v = if good then v.forward out else (v, .stall)) : DecidesOut p rule :=
  fun out v ctrl => ⟨fun f => (checks out v ctrl).trans (if_pos (forwards.mp f)), fun a => absurd a noAnswer,
    fun f _ => (checks out v ctrl).trans (if_neg (mt forwards.mpr f))⟩

section
variable (standard : standardOut p)
include standard

theorem featureRule_decides {act : State → EpIx → State} (code : featureRequest p) : DecidesOut p (featureRule act) := by
  intro out v ctrl
  subst ctrl
  have forwarded : forwardedOut v.dev.ctrl ↔ v.dev.ctrl.recip ≠ 2 ∧ ¬testMode v.dev.ctrl := by
    rw [standard.forwarded_iff]
    rcases id code with code | code <;> simp [code, featureRequest]
  have answered : answeredOut v.dev.ctrl ↔ testMode v.dev.ctrl := by
    rw [standard.answered_iff]
    rcases id code with code | code <;> simp [code, featureRequest]
  rw [forwarded, answered]
  refine ⟨fun ⟨recip, other⟩ => featureRule_other recip other, fun ⟨recip, value⟩ => featureRule_testMode recip value,
    fun other noTest => ?_⟩
  have recip : v.dev.ctrl.recip = 2 := by
    by_contra recip
    exact other ⟨recip, noTest⟩
  exact featureRule_no_endpoint recip (State.featureTarget_none (.inr (.inl standard.2.2)))

/-- A standard request's rule, by its code. -/
theorem requestRule_decides_standard : DecidesOut p (requestRule p) := by
  obtain ⟨rtype, dir, length⟩ := id standard
  have code {k : Byte} (h : p.request.toNat = k.toNat) : p.request = k := BitVec.eq_of_toNat_eq h
  have forwarded := standard.forwarded_iff
  have answered := standard.answered_iff
  unfold featureRequest at forwarded answered
  unfold requestRule
  rw [if_neg (not_not.mpr rtype)]
  split
  case h_1 is =>
    refine decidesOut_of_stall (by simp [forwarded, code (k := 0x00) is]) (by simp [answered, code (k := 0x00) is])
      fun out v ctrl => reqGetStatus_of_not_asks out fun asks => ?_
    rw [ctrl] at asks
    exact Bool.noConfusion (dir.symm.trans asks.2.1)
  case h_2 is => exact featureRule_decides standard (.inl (code is))
  case h_3 is => exact featureRule_decides standard (.inr (code is))
  case h_4 is =>
    exact decidesOut_of_stall (by simp [forwarded, code (k := 0x05) is]) (by simp [answered, code (k := 0x05) is])
      fun _ _ ctrl => if_neg fun ⟨_, _, noData, _⟩ => length (ctrl ▸ noData)
  case h_5 is =>
    exact decidesOut_of_checks (good := p.recip = 0)
      (by simp [forwarded, code (k := 0x06) is]) (by simp [answered, code (k := 0x06) is])
      fun out v ctrl => by simp [reqGetDescriptor, ctrl, recipDevice]
  case h_6 is =>
    exact decidesOut_of_checks (good := p.recip = 0)
      (by simp [forwarded, code (k := 0x07) is]) (by simp [answered, code (k := 0x07) is])
      fun out v ctrl => by simp [reqSetDescriptor, ctrl, recipDevice]
  case h_7 is =>
    exact decidesOut_of_checks (good := p.recip = 0 ∧ p.value = 0 ∧ p.index = 0 ∧ p.length = 1)
      (by simp [forwarded, code (k := 0x08) is]) (by simp [answered, code (k := 0x08) is])
      fun out v ctrl => by simp [reqGetConfiguration, ctrl, recipDevice]
  case h_8 is =>
    exact decidesOut_of_stall (by simp [forwarded, code (k := 0x09) is]) (by simp [answered, code (k := 0x09) is])
      fun _ _ ctrl => if_neg fun ⟨_, _, noData⟩ => length (ctrl ▸ noData)
  case h_9 is =>
    exact decidesOut_of_checks (by simp [forwarded, code (k := 0x0A) is]) (by simp [answered, code (k := 0x0A) is])
      fun _ _ _ => (if_pos trivial).symm
  case h_10 is =>
    exact decidesOut_of_checks (by simp [forwarded, code (k := 0x0B) is]) (by simp [answered, code (k := 0x0B) is])
      fun _ _ _ => (if_pos trivial).symm
  case h_11 is =>
    have answers : answeredOut p := by simp [answered, code (k := 0x0C) is]
    have noForward : ¬forwardedOut p := by simp [forwarded, code (k := 0x0C) is]
    exact fun _ _ _ => ⟨fun f => absurd f noForward, fun _ => rfl, fun _ none => absurd answers none⟩
  case h_12 get clear set address getDesc setDesc getConf setConf getIf setIf synch =>
    have not {k : Byte} (other : p.request.toNat = k.toNat → False) : p.request ≠ k := fun e => other (e ▸ rfl)
    refine decidesOut_of_stall ?_ ?_ fun _ _ _ => rfl
    · simp only [forwarded, not (k := 0x06) getDesc, not (k := 0x07) setDesc, not (k := 0x08) getConf,
        not (k := 0x0A) getIf, not (k := 0x0B) setIf, not (k := 0x01) clear, not (k := 0x03) set, or_self, false_and,
        not_false_iff]
    · simp only [answered, not (k := 0x0C) synch, not (k := 0x01) clear, not (k := 0x03) set, or_self, false_and,
        not_false_iff]

end

/-- A request after its OUT data is forwarded, answered, or stalled. -/
theorem requestRule_decides (known : p.rtype ≠ 0 ∨ standardOut p) : DecidesOut p (requestRule p) := by
  rcases known with other | standard
  · unfold requestRule
    rw [if_pos other]
    exact reqNonstandard_decides other
  · exact requestRule_decides_standard standard

/-! ### Collecting a packet (R233) -/

/-- How many bytes of the packet in EP0's bank the OUT data stage takes. -/
def State.dataTaken (s : State) : Len := lenMin (s.ep 0).sta.bytecnt (s.dev.ctrl.length - s.dev.scratchCount)

/-- The Device record once those bytes are in the scratch buffer. -/
def State.collectedDev (s : State) : Device :=
  { s.dev with
    scratchCount := s.dev.scratchCount + s.dataTaken
    scratch := s.dev.scratch.take s.dev.scratchCount.toNat ++ (s.ep 0).fifo.rx.take s.dataTaken.toNat ++
      s.dev.scratch.drop (s.dev.scratchCount.toNat + s.dataTaken.toNat) }

/-- An endpoint whose received packet has been read, in state `x`. -/
def Endpoint.read (x : EpState) (e : Endpoint) : Endpoint :=
  { e with state := x, sta := { e.sta with rxrdy := false }, fifo := { e.fifo with rx := [] } }

/-- EP0 has taken the packet, and is in state `x`. -/
def State.collected (s : State) (x : EpState) : State := { s.modEp 0 (Endpoint.read x) with dev := s.collectedDev }

/-- The bytes collected so far. -/
def State.collectedBytes (s : State) : List Byte := s.collectedDev.scratch.take s.collectedDev.scratchCount.toNat

/-- The packet ends the data stage: all of the data has arrived, or the packet is short. -/
def State.dataEnds (s : State) : Prop :=
  s.dev.scratchCount + s.dataTaken = s.dev.ctrl.length ∨ (s.ep 0).sta.bytecnt < (s.ep 0).mps

/-- A control request's OUT data is being collected, and the bank holds the bytes its status announces. -/
structure State.collects (s : State) : Prop where
  stage : (s.ep 0).state = .ep0DataOut
  held : s.dataTaken.toNat ≤ (s.ep 0).fifo.rx.length

theorem State.collected_ep_same (s : State) (x : EpState) : (s.collected x).ep 0 = (s.ep 0).read x :=
  State.modEp_ep_same s 0 _

theorem State.collected_ep_other (s : State) (x : EpState) {j : EpIx} (hj : j ≠ 0) : (s.collected x).ep j = s.ep j :=
  State.modEp_ep_other s 0 j _ hj

theorem State.collected_idle (s : State) (x : EpState) : (s.collected x).setEpState 0 .idle = s.collected .idle := by
  refine State.eq_of_ep rfl fun j => ?_
  by_cases hj : j = 0
  · rw [hj, State.setEpState_ep, if_pos rfl, State.collected_ep_same, State.collected_ep_same]
    rfl
  · rw [State.setEpState_ep, if_neg hj, State.collected_ep_other s x hj, State.collected_ep_other s .idle hj]

section
variable (c : s.collects)
include c

/-- The packet is read and its bank released. -/
theorem State.collects.read_eq : ((s.fifoReadRx 0 s.dataTaken.toNat).2.modDev fun d =>
    { d with
      scratch := spliceBytes d.scratch d.scratchCount.toNat (s.fifoReadRx 0 s.dataTaken.toNat).1
      scratchCount := d.scratchCount + s.dataTaken }).releaseRx 0 = s.collected .ep0DataOut := by
  have bytes : (s.fifoReadRx 0 s.dataTaken.toNat).1 = (s.ep 0).fifo.rx.take s.dataTaken.toNat :=
    s.bankBytes_of_le _ _ c.held
  have taken : ((s.ep 0).fifo.rx.take s.dataTaken.toNat).length = s.dataTaken.toNat := List.length_take_of_le c.held
  have drawn : (s.fifoReadRx 0 s.dataTaken.toNat).2 =
      s.modEp 0 fun e => { e with fifo := { e.fifo with rx := (s.ep 0).fifo.rx.drop s.dataTaken.toNat } } := by
    unfold State.fifoReadRx
    dsimp only
    rw [Nat.sub_eq_zero_of_le c.held]
    rfl
  rw [bytes, drawn]
  refine State.eq_of_ep ?_ fun j => ?_
  · unfold spliceBytes
    rw [taken]
    rfl
  · by_cases hj : j = 0
    · subst hj
      rw [State.collected_ep_same]
      simp [State.releaseRx, Endpoint.read, c.stage]
    · rw [State.collected_ep_other s _ hj]
      simp [State.releaseRx, hj]

theorem State.collects.rxReady_packet : s.rxReady 0 = s.ep0DataOutPacket := by
  unfold State.rxReady
  rw [if_neg (by rw [c.stage]; nofun), if_pos rfl, if_pos c.stage]

/-- RX-ready in the data stage takes the packet, and then acts on the request if the packet ends the stage. -/
theorem State.collects.rxReady_eq : s.rxReady 0 =
    if s.dev.scratchCount + s.dataTaken = s.dev.ctrl.length ∨ (s.ep 0).sta.bytecnt < (s.ep 0).mps
    then ((s.collected .idle).ep0Dispatch (some s.collectedBytes)).startEp0 else s.collected .ep0DataOut := by
  have mps : ((s.collected .ep0DataOut).ep 0).mps = (s.ep 0).mps := by rw [State.collected_ep_same]; rfl
  have packet : s.ep0DataOutPacket = if s.dev.scratchCount + s.dataTaken = s.dev.ctrl.length ∨
      (s.ep 0).sta.bytecnt < ((s.collected .ep0DataOut).ep 0).mps
      then (((s.collected .ep0DataOut).setEpState 0 .idle).ep0Dispatch (some s.collectedBytes)).startEp0
      else s.collected .ep0DataOut := by
    unfold State.ep0DataOutPacket
    extract_lets count n r s1
    have read : s1 = s.collected .ep0DataOut := c.read_eq
    rw [read]
    rfl
  rw [c.rxReady_packet, packet, mps, State.collected_idle]

theorem State.collects.rxReady_more (more : ¬s.dataEnds) : s.rxReady 0 = s.collected .ep0DataOut :=
  c.rxReady_eq.trans (if_neg more)

theorem State.collects.rxReady_ends (ends : s.dataEnds) :
    s.rxReady 0 = ((s.collected .idle).ep0Dispatch (some s.collectedBytes)).startEp0 := c.rxReady_eq.trans (if_pos ends)

end

/-! ### After the dispatch (R236, R258) -/

/-- An answered request hands over a zero-length packet, and EP0 is in the status stage. -/
theorem State.dispatch_answered (rule : requestRule v.dev.ctrl out v = (v, .success [])) :
    (v.ep0Dispatch out).startEp0 = v.ep0Finish v.dev.ctrl (.success []) := by
  have answered : v.ep0Dispatch out = v.ep0Finish v.dev.ctrl (.success []) := by
    rw [State.ep0Dispatch, State.runRequest, rule]
  rw [answered]
  exact if_neg (by simp [State.ep0Finish])

section
variable (idle : (v.ep 0).state = .idle)
include idle

/-- A forwarded request leaves EP0 `Idle`, and its queue starts. -/
theorem State.dispatch_forwarded (rule : requestRule v.dev.ctrl out v = v.forward out) (bound : v.dev.driver ≠ nullRef) :
    (v.ep0Dispatch out).startEp0 = (v.callback (.onSetup v.dev.ctrl out)).startTransfer 0 := by
  have told : v.ep0Dispatch out = v.callback (.onSetup v.dev.ctrl out) := by
    rw [State.ep0Dispatch, State.runRequest, rule, State.forward, if_neg bound]
    rfl
  rw [told]
  exact if_pos idle

/-- A refused request stalls EP0. -/
theorem State.dispatch_stalled (rule : requestRule v.dev.ctrl out v = (v, .stall)) :
    (v.ep0Dispatch out).startEp0 = v.freezeEp 0 := by
  have stalled : v.ep0Dispatch out = v.freezeEp 0 := by
    rw [State.ep0Dispatch, State.runRequest, rule]
    exact State.stallEp_still (State.not_moving_of_state idle nofun nofun) (by rw [idle]; nofun) (by rw [idle]; nofun)
  rw [stalled]
  exact if_neg (by rw [State.freezeEp_ep_same]; nofun)

end

theorem State.acknowledge_ep_zero (v : State) (p : SetupPacket) : (v.ep0Finish p (.success [])).ep 0 = { v.ep 0 with
    state := .ep0StatusIn
    ctl := { (v.ep 0).ctl with txpktrdy := true }
    fifo := { (v.ep 0).fifo with fill := [], tx := (v.ep 0).fifo.tx ++ [(v.ep 0).fifo.fill] } } := by
  simp [State.ep0Finish, Fifo.hand]

theorem knownOut_of_requested (requested : forwardedOut p ∨ answeredOut p) : p.rtype ≠ 0 ∨ standardOut p := by
  rcases requested with (other | ⟨standard, _⟩) | ⟨standard, _⟩
  · exact .inl other
  · exact .inr standard
  · exact .inr standard

theorem State.collected_state (s : State) : ((s.collected .idle).ep 0).state = .idle := by
  rw [State.collected_ep_same]
  rfl

/-- Stalling EP0 after its data drops the count of the data. -/
theorem State.collected_freeze_rest (s : State) : (s.collected .idle).freezeEp 0 = { s with
    eps := ((s.collected .idle).freezeEp 0).eps
    dev := { s.collectedDev with scratchCount := 0, pendingAddr := 0 } } := (s.collected .idle).freezeEp_rest 0

section
variable (c : s.collects) (ends : s.dataEnds)
include c ends

theorem State.collects.forwards (requested : forwardedOut s.dev.ctrl) (bound : s.dev.driver ≠ nullRef) : s.rxReady 0 =
    ((s.collected .idle).callback (.onSetup s.dev.ctrl (some s.collectedBytes))).startTransfer 0 := by
  obtain ⟨forward, -, -⟩ :=
    requestRule_decides (knownOut_of_requested (.inl requested)) (some s.collectedBytes) (s.collected .idle) rfl
  exact (c.rxReady_ends ends).trans (State.dispatch_forwarded s.collected_state (forward requested) bound)

theorem State.collects.answers (requested : answeredOut s.dev.ctrl) :
    s.rxReady 0 = (s.collected .idle).ep0Finish s.dev.ctrl (.success []) := by
  obtain ⟨-, answer, -⟩ :=
    requestRule_decides (knownOut_of_requested (.inr requested)) (some s.collectedBytes) (s.collected .idle) rfl
  exact (c.rxReady_ends ends).trans (State.dispatch_answered (answer requested))

theorem State.collects.stalls (refused : (forwardedOut s.dev.ctrl ∧ s.dev.driver = nullRef) ∨
    (standardOut s.dev.ctrl ∧ ¬forwardedOut s.dev.ctrl ∧ ¬answeredOut s.dev.ctrl)) :
    s.rxReady 0 = (s.collected .idle).freezeEp 0 := by
  refine (c.rxReady_ends ends).trans (State.dispatch_stalled s.collected_state ?_)
  rcases refused with ⟨requested, unbound⟩ | ⟨standard, noForward, noAnswer⟩
  · obtain ⟨forward, -, -⟩ :=
      requestRule_decides (knownOut_of_requested (.inl requested)) (some s.collectedBytes) (s.collected .idle) rfl
    exact (forward requested).trans (if_pos unbound)
  · obtain ⟨-, -, stall⟩ :=
      requestRule_decides (.inr standard) (some s.collectedBytes) (s.collected .idle) rfl
    exact stall noForward noAnswer

/-- Acting on the request leaves every other endpoint alone. -/
theorem State.collects.ends_other (known : s.dev.ctrl.rtype ≠ 0 ∨ standardOut s.dev.ctrl) {j : EpIx} (hj : j ≠ 0) :
    (s.rxReady 0).ep j = s.ep j := by
  have collected := s.collected_ep_other .idle hj
  have stalled : ((s.collected .idle).freezeEp 0).ep j = s.ep j := by rw [State.freezeEp_ep, if_neg hj, collected]
  by_cases forwarded : forwardedOut s.dev.ctrl
  · by_cases unbound : s.dev.driver = nullRef
    · rw [c.stalls ends (.inl ⟨forwarded, unbound⟩), stalled]
    · rw [c.forwards ends forwarded unbound]
      exact ((EpFrame.start 0 _).startTransfer.other j hj).trans collected
  · by_cases answered : answeredOut s.dev.ctrl
    · rw [c.answers ends answered, State.acknowledge_ep _ _ j hj, collected]
    · have standard := known.resolve_left fun other => forwarded (.inl other)
      rw [c.stalls ends (.inr ⟨standard, forwarded, answered⟩), stalled]

end

/-! ### The obligation -/

/-- Settles O47: the packet is collected, and the request's rule decides between the three outcomes
(`requestRule_decides`). -/
theorem ep0CollectsOutData : Obligations.Ep0CollectsOutData := by
  intro s stage p count left n e got data d e' ends standard code feature testMode forwarded answered t held
  have c : s.collects := ⟨stage, held⟩
  have ep0 : ∀ x, (s.collected x).ep 0 = { e' with state := x } := s.collected_ep_same
  refine ⟨fun known j hj => ?_, fun more => ?_, fun final requested bound => ?_, fun final requested => ?_,
    fun final refused => ?_⟩
  · by_cases final : ends
    · exact c.ends_other final (known.resolve_left (not_not.mpr final)) hj
    · exact (congrArg (State.ep · j) (c.rxReady_more final)).trans (s.collected_ep_other _ hj)
  · have collected : t = s.collected .ep0DataOut := c.rxReady_more more
    rw [collected]
    exact ⟨rfl, (ep0 _).trans (by rw [← stage])⟩
  · have started := c.forwards final requested bound
    let u := (s.collected .idle).callback (.onSetup p (some (data.take got.toNat)))
    have queue : (u.ep 0).queue = e.queue := (congrArg Endpoint.queue (ep0 .idle) :)
    refine ⟨u, rfl, ep0 _, fun j hj => s.collected_ep_other _ hj, started, fun none => ?_, ?_⟩
    · exact started.trans (State.startTransfer_nil (queue.trans none))
    · rw [show t = u.startTransfer 0 from started]
      exact State.startTransfer_settled u s.collected_state
  · have done : t = (s.collected .idle).ep0Finish p (.success []) := c.answers final requested
    rw [done]
    refine ⟨rfl, (State.acknowledge_ep_zero _ p).trans ?_⟩
    rw [ep0]
  · have stalled : t = (s.collected .idle).freezeEp 0 := c.stalls final refused
    rw [stalled]
    refine ⟨s.collected_freeze_rest, ?_⟩
    rw [State.freezeEp_ep_same, ep0]

end Sys2Proof.Machine
end

section
/-! SUPPORT. RX-ready with no read in progress (O46): the packet is discarded or held in its bank. -/

namespace Sys2Proof.Machine

variable {s : State} {i : EpIx}

/-- A disabled endpoint, and EP0 outside its OUT data stage, discard the packet (R312). -/
theorem State.rxReady_discards (noRead : (s.ep i).state ≠ .receiving) (noData : ¬(i = 0 ∧ (s.ep 0).state = .ep0DataOut))
    (refuses : i = 0 ∨ (s.ep i).state = .disabled) : s.rxReady i = s.releaseRx i := by
  unfold State.rxReady
  rw [if_neg noRead]
  by_cases zero : i = 0
  · subst zero
    rw [if_pos rfl, if_neg fun data => noData ⟨rfl, data⟩]
  · rw [if_neg zero, if_pos (refuses.resolve_left zero)]

/-- Any other endpoint without a read holds the packet (R187, R312). -/
theorem State.rxReady_holds (noRead : (s.ep i).state ≠ .receiving) (other : i ≠ 0) (enabled : (s.ep i).state ≠ .disabled) :
    s.rxReady i = s.holdRx i := by
  unfold State.rxReady
  rw [if_neg noRead, if_neg other, if_neg enabled]

/-- RX-ready with no read in progress leaves the other endpoints alone. -/
theorem State.rxReady_ep_other (noRead : (s.ep i).state ≠ .receiving) (noData : ¬(i = 0 ∧ (s.ep 0).state = .ep0DataOut))
    {j : EpIx} (hj : j ≠ i) : (s.rxReady i).ep j = s.ep j := by
  by_cases refuses : i = 0 ∨ (s.ep i).state = .disabled
  · rw [State.rxReady_discards noRead noData refuses]
    exact (EpFrame.start i s).releaseRx.other j hj
  · obtain ⟨nonzero, enabled⟩ := not_or.mp refuses
    rw [State.rxReady_holds noRead nonzero enabled]
    exact (EpFrame.start i s).holdRx.other j hj

/-- Marking an endpoint that exists makes the OR of the marks true (R35). -/
theorem State.setRxpend_true_dev (valid : s.validEp i = true) :
    (s.setRxpend i true).dev = { s.dev with rxpending := true } := by
  have marked : (s.epList.any fun k => ((s.modEp i fun e => { e with rxpend := true }).ep k).rxpend) = true :=
    List.any_eq_true.mpr ⟨i, (s.mem_epList i).mpr valid, by rw [State.modEp_ep_same]⟩
  exact congrArg (fun b => { s.dev with rxpending := b }) marked

/-- Holding a packet writes no more than the endpoint and `dev.rxpending`. -/
theorem State.holdRx_rest (valid : s.validEp i = true) :
    s.holdRx i = { s with eps := (s.holdRx i).eps, dev := { s.dev with rxpending := true } } := by
  rw [← State.setRxpend_true_dev valid]
  rfl

theorem State.holdRx_ep_same (s : State) (i : EpIx) :
    (s.holdRx i).ep i = { s.ep i with rxpend := true, ctl := { (s.ep i).ctl with rxrdyIe := false } } := by
  rw [State.holdRx, State.modCtl_ep, if_pos rfl, State.setRxpend_ep, if_pos rfl]

/-- Settles O46: by the endpoint and its state, RX-ready is `releaseRx` or `holdRx`. -/
theorem rxReadyWithoutAReadHoldsOrDiscards : Obligations.RxReadyWithoutAReadHoldsOrDiscards := by
  intro i s noRead noData e t
  refine ⟨fun j hj => State.rxReady_ep_other noRead noData hj, fun refuses => ?_, fun nonzero enabled valid => ?_⟩
  · have discarded : t = s.releaseRx i := State.rxReady_discards noRead noData refuses
    rw [discarded]
    exact ⟨rfl, by rw [State.releaseRx_ep, if_pos rfl]⟩
  · have held : t = s.holdRx i := State.rxReady_holds noRead nonzero enabled
    rw [held]
    exact ⟨State.holdRx_rest valid, State.holdRx_ep_same s i⟩

end Sys2Proof.Machine
end

section
/-! SUPPORT. Statuses that come late (O49): TX-done where nothing is sent, a DMA status with no request in a transfer, and the
STALL-sent acknowledgment, which ends a transfer in flight. -/

namespace Sys2Proof.Machine

variable {s : State} {i : EpIx} {h : Ref} {more : List Ref}

/-! ### TX-done (R310) -/

theorem State.txDone_late (sendsNothing : (s.ep i).state = .disabled ∨ (s.ep i).state = .stalled ∨ (s.ep i).state = .idle ∨
    (s.ep i).state = .receiving ∨ (s.ep i).state = .ep0DataOut) : s.txDone i = s := by
  unfold State.txDone
  rcases sendsNothing with state | state | state | state | state <;> rw [state]

/-! ### A DMA status with no request in a transfer (R205) -/

/-- The handler then only halts the channel. -/
theorem State.dmaInterrupt_late (late : s.moving i = false ∨ (s.ep i).queue = []) : s.dmaInterrupt i = s.haltDma i := by
  have halted := (State.haltDma_served s i nullRef).ep
  have peek : (s.haltDma i).peek i = s.peek i := State.peek_of_queue (congrArg Endpoint.queue halted :)
  have state : ((s.haltDma i).ep i).state = (s.ep i).state := (congrArg Endpoint.state halted :)
  unfold State.dmaInterrupt
  extract_lets d s1
  rw [show s1 = s.haltDma i from rfl, peek]
  cases head : s.peek i with
  | none => rfl
  | some h =>
    have queued : (s.ep i).queue ≠ [] := fun empty => by simp [State.peek_eq, empty] at head
    have still := mt (State.moving_iff s i).mpr (by simp [late.resolve_right queued])
    dsimp only
    rw [if_pos (by rw [state]; exact not_or.mp still)]

/-- Halting a channel writes no request and no trace. -/
theorem State.haltDma_rest (s : State) (i : EpIx) : s.haltDma i = { s with
    eps := (s.haltDma i).eps, mem := (s.haltDma i).mem, draws := (s.haltDma i).draws
    intPending := { s.intPending with dma := (s.haltDma i).intPending.dma } } := by
  obtain ⟨rest, -⟩ := State.scrambleSlice_spec s i
  have reqs : (s.haltDma i).reqs = s.reqs := (congrArg State.reqs rest :)
  have served := (s.haltDma_served i nullRef).rest
  rwa [State.servedAs, reqs, List.append_nil, List.append_nil] at served

/-- Of the pending interrupts halting a channel clears its own. -/
theorem State.haltDma_pending (s : State) (i c : EpIx) :
    (s.haltDma i).intPending.dma.getLsbD c.val = (decide (c ≠ i) && s.intPending.dma.getLsbD c.val) := by
  obtain ⟨rest, -⟩ := State.scrambleSlice_spec s i
  have pending : (s.scrambleSlice i).intPending = s.intPending := (congrArg State.intPending rest :)
  have cleared : (s.haltDma i).intPending.dma = (s.scrambleSlice i).intPending.dma &&& ~~~(BitVec.twoPow 16 i.val) := rfl
  rw [cleared, pending]
  by_cases same : c = i
  · subst same; simp
  · have apart : c.val ≠ i.val := Fin.val_ne_of_ne same
    simp [same, apart]

/-! ### Stopping a busy channel (R207) -/

/-- Stopping a channel writes no callback and nothing of the Device record. -/
theorem State.dmaStopIfBusy_rest (s : State) (i : EpIx) : s.dmaStopIfBusy i = { s with
    eps := (s.dmaStopIfBusy i).eps, reqs := (s.dmaStopIfBusy i).reqs
    mem := (s.dmaStopIfBusy i).mem, draws := (s.dmaStopIfBusy i).draws
    intPending := { s.intPending with dma := (s.dmaStopIfBusy i).intPending.dma } } := by
  obtain ⟨frame, calls, -⟩ := s.dmaStopIfBusy_spec i
  have dev := s.dmaStopIfBusy_dev i
  conv_lhs => rw [frame.eq, State.shutAs, calls, dev]

/-- The channel of an endpoint after `DmaStop` if it was busy: halted, its interrupt disabled and its status cleared. -/
def Endpoint.chanStopped (e : Endpoint) : DmaChan :=
  if e.dmaBusy then
    { e.chan with en := false, ie := false, eob := false, eoc := false, err := false, running := false }
  else e.chan

theorem State.dmaStopIfBusy_ep (s : State) (i : EpIx) : (s.dmaStopIfBusy i).ep i = { s.ep i with
    dmaBusy := false
    chan := (s.ep i).chanStopped
    fifo := { (s.ep i).fifo with rx := ((s.dmaStopIfBusy i).ep i).fifo.rx } } := by
  have chan : (s.ep i).stoppedChan (!(s.ep i).dmaBusy && (s.ep i).chan.ie) = (s.ep i).chanStopped := by
    cases busy : (s.ep i).dmaBusy <;> simp [Endpoint.stoppedChan, Endpoint.chanStopped, busy]
  rw [← chan]
  exact State.dmaStopIfBusy_ep_same s i

/-! ### STALL-sent (R313) -/

/-- The stall of endpoint `i` is no longer forced (R313). -/
def State.unforceStall (s : State) (i : EpIx) : State := s.modCtl i fun c => { c with forcestall := false }

theorem State.unforceStall_ep_same (s : State) (i : EpIx) :
    (s.unforceStall i).ep i = { s.ep i with ctl := { (s.ep i).ctl with forcestall := false } } :=
  State.modEp_ep_same s i _

theorem State.unforceStall_ep_other {j : EpIx} (hj : j ≠ i) : (s.unforceStall i).ep j = s.ep j :=
  State.modEp_ep_other s i j _ hj

theorem State.unforceStall_openSlice (s : State) (i : EpIx) : (s.unforceStall i).openSlice i = s.openSlice i := by
  unfold State.openSlice State.liveSlice State.isIn
  rw [State.unforceStall_ep_same]

theorem State.stallSent_stalled (stalled : (s.ep i).state = .stalled) : s.stallSent i = s := if_pos stalled

theorem State.stallSent_still (on : (s.ep i).state ≠ .stalled) (still : s.moving i = false) :
    s.stallSent i = s.unforceStall i := by
  have state : ((s.unforceStall i).ep i).state = (s.ep i).state := by rw [State.unforceStall_ep_same]
  refine (if_neg on).trans (if_neg ?_)
  show ¬(((s.unforceStall i).ep i).state = .sending ∨ ((s.unforceStall i).ep i).state = .receiving)
  rw [state, ← State.moving_iff, still]
  nofun

/-- The stall of endpoint `i` is no longer forced, and its channel is stopped if it was busy (R207, R313). -/
def State.stallStopped (s : State) (i : EpIx) : State := (s.unforceStall i).dmaStopIfBusy i

theorem State.stallSent_moving (moving : s.moving i = true) :
    s.stallSent i = (s.stallStopped i).completeAndStart i .ioError := by
  have moves := (State.moving_iff s i).mp moving
  have state : ((s.unforceStall i).ep i).state = (s.ep i).state := by rw [State.unforceStall_ep_same]
  have on : (s.ep i).state ≠ .stalled := fun stalled => by simp [stalled] at moves
  refine (if_neg on).trans (if_pos ?_)
  show ((s.unforceStall i).ep i).state = .sending ∨ ((s.unforceStall i).ep i).state = .receiving
  rwa [state]

theorem State.stallStopped_ep (s : State) (i : EpIx) : (s.stallStopped i).ep i = { s.ep i with
    dmaBusy := false
    ctl := { (s.ep i).ctl with forcestall := false }
    chan := (s.ep i).chanStopped
    fifo := { (s.ep i).fifo with rx := ((s.stallStopped i).ep i).fifo.rx } } := by
  have stopped := (s.unforceStall i).dmaStopIfBusy_ep i
  rwa [State.unforceStall_ep_same] at stopped

theorem State.stallStopped_queue (s : State) (i : EpIx) : ((s.stallStopped i).ep i).queue = (s.ep i).queue := by
  rw [State.stallStopped_ep]

theorem State.stallStopped_rest (s : State) (i : EpIx) : s.stallStopped i = { s with
    eps := (s.stallStopped i).eps, reqs := (s.stallStopped i).reqs
    mem := (s.stallStopped i).mem, draws := (s.stallStopped i).draws
    intPending := { s.intPending with dma := (s.stallStopped i).intPending.dma } } :=
  (s.unforceStall i).dmaStopIfBusy_rest i

theorem State.stallStopped_ep_other {j : EpIx} (hj : j ≠ i) : (s.stallStopped i).ep j = s.ep j :=
  ((EpFrame.start i s).modCtl _).dmaStopIfBusy.other j hj

theorem State.stallStopped_hasReq (s : State) (i : EpIx) (k : Ref) : (s.stallStopped i).hasReq k = s.hasReq k := by
  obtain ⟨-, -, has, -⟩ := (s.unforceStall i).dmaStopIfBusy_spec i
  exact has k

theorem State.stallStopped_memory (s : State) (i : EpIx) :
    SameMemoryOutside (s.ep i).chan.addr (s.openSlice i) s (s.stallStopped i) := by
  have memory := (s.unforceStall i).dmaStopIfBusy_memory i
  rwa [State.unforceStall_openSlice, State.unforceStall_ep_same] at memory

theorem State.stallStopped_rx (s : State) (i : EpIx) :
    RxLeft (s.openSlice i) (s.ep i).fifo.rx ((s.stallStopped i).ep i).fifo.rx := by
  have left := (s.unforceStall i).dmaStopIfBusy_rx i
  rwa [State.unforceStall_openSlice, State.unforceStall_ep_same] at left

/-- The request at the head is completed as it would be without the stop. -/
theorem State.stallStopped_completed (s : State) (i : EpIx) (r : Result) (k : Ref) :
    completed r ((s.stallStopped i).req k) = completed r (s.req k) := by
  obtain ⟨-, -, -, stopped⟩ := (s.unforceStall i).dmaStopIfBusy_spec i
  exact completed_congr (stopped k) r

theorem State.stallStopped_req_other (queue : (s.ep i).queue = h :: more) {k : Ref} (hk : k ≠ h) :
    (s.stallStopped i).req k = s.req k :=
  State.dmaStopIfBusy_req_other (s := s.unforceStall i) (rest := more)
    (by rw [State.unforceStall_ep_same]; exact queue) hk

/-- `u` is `s` after STALL-sent has ended the transfer of the head request `h` of endpoint `i`, before what is queued
behind it starts: the slice under way is stopped, and of it no more than its bytes are left open (R207, R313). -/
structure StallEnded (i : EpIx) (h : Ref) (more : List Ref) (s u : State) : Prop where
  rest : u = { s with
    eps := u.eps, reqs := u.reqs, mem := u.mem, draws := u.draws, cbList := s.cbList ++ [.done i h .ioError]
    intPending := { s.intPending with dma := u.intPending.dma } }
  ep : u.ep i = { s.ep i with
    state := .idle
    queue := more
    dmaBusy := false
    ctl := { (s.ep i).ctl with forcestall := false }
    chan := (s.ep i).chanStopped
    fifo := { (s.ep i).fifo with rx := (u.ep i).fifo.rx } }
  other : ∀ j, j ≠ i → u.ep j = s.ep j
  req : u.req h = completed .ioError (s.req h)
  requests : ∀ k, k ≠ h → u.req k = s.req k
  memory : SameMemoryOutside (s.ep i).chan.addr (s.openSlice i) s u
  left : RxLeft (s.openSlice i) (s.ep i).fifo.rx (u.ep i).fifo.rx

/-- Once the channel is stopped, only the head request is left to end. -/
theorem Ended.stallEnded {u : State} (E : Ended i h .ioError more (s.stallStopped i) u)
    (queue : (s.ep i).queue = h :: more) : StallEnded i h more s u := by
  have stopped := s.stallStopped_rest i
  have rx : (u.ep i).fifo.rx = ((s.stallStopped i).ep i).fifo.rx := (congrArg (·.fifo.rx) E.ep :)
  refine ⟨?_, ?_, fun j hj => (E.other j hj).trans (State.stallStopped_ep_other hj),
    E.req.trans (s.stallStopped_completed i .ioError h),
    fun k hk => (E.requests k hk).trans (State.stallStopped_req_other queue hk), ?_, ?_⟩
  · have pending : u.intPending = (s.stallStopped i).intPending := (congrArg State.intPending E.rest :)
    refine E.rest.trans ?_
    rw [E.mem, E.draws, pending]
    conv_lhs => rw [stopped]
  · rw [rx, E.ep]
    conv_lhs => rw [State.stallStopped_ep]
  · rw [SameMemoryOutside, E.mem]
    exact s.stallStopped_memory i
  · rw [rx]
    exact s.stallStopped_rx i

/-- Settles O49: a late status is `State.txDone_late` or `State.dmaInterrupt_late`, and STALL-sent is by whether the endpoint
is stalled, still or moving. -/
theorem lateStatusIsIgnoredAndStallSentEndsATransfer : Obligations.LateStatusIsIgnoredAndStallSentEndsATransfer := by
  intro i h more s e
  refine ⟨State.txDone_late, fun late => ?_, State.stallSent_stalled, fun on still => ?_, fun moving queue known => ?_⟩
  · have S := s.haltDma_served i nullRef
    have late : s.handle (.dma i) = s.haltDma i := State.dmaInterrupt_late late
    rw [late]
    exact ⟨s.haltDma_rest i, s.haltDma_pending i, S.other, S.ep, S.memory, S.left⟩
  · rw [State.stallSent_still on still]
    exact ⟨rfl, fun j hj => State.unforceStall_ep_other hj, s.unforceStall_ep_same i⟩
  · intro t
    have frame : EpFrame i (h :: more) s t := queue ▸ (EpFrame.start i s).stallSent
    have E : Ended i h .ioError more (s.stallStopped i) ((s.stallStopped i).endHead i .ioError) :=
      State.endHead_ended ((s.stallStopped_queue i).trans queue) ((s.stallStopped_hasReq i h).trans known)
    have next : t = ((s.stallStopped i).endHead i .ioError).startTransfer i := State.stallSent_moving moving
    have alone : more = [] → t = (s.stallStopped i).endHead i .ioError := fun none => by
      subst none
      exact next.trans E.startTransfer_nil
    have settled := E.settled
    rw [← next] at settled
    obtain ⟨rest, ep, other, req, requests, memory, left⟩ := E.stallEnded queue
    exact ⟨frame, settled, _, next, alone, rest, ep, other, req, requests, memory, left⟩

end Sys2Proof.Machine
end

section
/-! SUPPORT. What the SETUP instructions share (O6, O30, O31): each is EP0 receiving its own packet, and the dispatcher's way
through EP0's SETUP bank comes to the same. -/

namespace Sys2Proof.Machine

variable {s : State} {i : Instr} {t : BitVec 2} {code : Byte} {a : SetupArgs} {p : SetupPacket}
  {rule : Option (List Byte) → State → State × Ep0Outcome}

/-! ### Every SETUP instruction -/

/-- The SETUP instruction `i` has the operands `a`, the type bits `t` and the request code `code`, and means that EP0 receives
its packet, whose request follows `rule`; that is the rule the dispatch finds if `i` is well formed (R83, R85, R234). -/
structure SetupMeaning (i : Instr) (t : BitVec 2) (code : Byte) (a : SetupArgs)
    (rule : Option (List Byte) → State → State × Ep0Outcome) : Prop where
  args : setupArgs i = some a
  encoding : encode i = encodeSetup t code a
  dispatched : i.wellFormed = true → requestRule (packSetup t code a) = rule
  meaning : ∀ s, exec i s = .next (s.receiveSetup (packSetup t code a) rule)

/-- A packet whose type is not standard (R240). -/
theorem requestRule_nonstandard (ht : t ≠ 0) : requestRule (packSetup t code a) = reqNonstandard := by
  rw [requestRule, packSetup_rtype, if_pos ht]

/-- A standard request whose code R85 does not name (R255). -/
theorem requestRule_unknown (h : isUnknownRequest code = true) : requestRule (packSetup 0 code a) = reqUnknownStandard := by
  have unnamed : code.toNat = 2 ∨ code.toNat = 4 ∨ 13 ≤ code.toNat := by
    simpa [isUnknownRequest, BitVec.toNat_eq, BitVec.le_def, or_assoc] using h
  rw [requestRule, packSetup_rtype, if_neg (not_not.mpr rfl), packSetup_request]
  split
  iterate 11 next => omega
  rfl

/-- Every SETUP instruction is EP0 receiving its packet (R230). -/
theorem setupMeaning_of_port (h : portOf i = .setup) : ∃ t code a rule, SetupMeaning i t code a rule := by
  cases i with
  | setupGetStatus a => exact ⟨0, 0x00, a, reqGetStatus, rfl, rfl, fun _ => by simp [requestRule], fun _ => rfl⟩
  | setupClearFeature a => exact ⟨0, 0x01, a, reqClearFeature, rfl, rfl, fun _ => by simp [requestRule], fun _ => rfl⟩
  | setupSetFeature a => exact ⟨0, 0x03, a, reqSetFeature, rfl, rfl, fun _ => by simp [requestRule], fun _ => rfl⟩
  | setupSetAddress a => exact ⟨0, 0x05, a, reqSetAddress, rfl, rfl, fun _ => by simp [requestRule], fun _ => rfl⟩
  | setupGetDescriptor a => exact ⟨0, 0x06, a, reqGetDescriptor, rfl, rfl, fun _ => by simp [requestRule], fun _ => rfl⟩
  | setupSetDescriptor a => exact ⟨0, 0x07, a, reqSetDescriptor, rfl, rfl, fun _ => by simp [requestRule], fun _ => rfl⟩
  | setupGetConfiguration a =>
    exact ⟨0, 0x08, a, reqGetConfiguration, rfl, rfl, fun _ => by simp [requestRule], fun _ => rfl⟩
  | setupSetConfiguration a =>
    exact ⟨0, 0x09, a, reqSetConfiguration, rfl, rfl, fun _ => by simp [requestRule], fun _ => rfl⟩
  | setupGetInterface a => exact ⟨0, 0x0A, a, reqGetInterface, rfl, rfl, fun _ => by simp [requestRule], fun _ => rfl⟩
  | setupSetInterface a => exact ⟨0, 0x0B, a, reqSetInterface, rfl, rfl, fun _ => by simp [requestRule], fun _ => rfl⟩
  | setupSynchFrame a => exact ⟨0, 0x0C, a, reqSynchFrame, rfl, rfl, fun _ => by simp [requestRule], fun _ => rfl⟩
  | setupUnknownStandard code a => exact ⟨0, code, a, reqUnknownStandard, rfl, rfl, requestRule_unknown, fun _ => rfl⟩
  | setupNonstandardClass code a =>
    exact ⟨1, code, a, reqNonstandard, rfl, rfl, fun _ => requestRule_nonstandard (by decide), fun _ => rfl⟩
  | setupNonstandardVendor code a =>
    exact ⟨2, code, a, reqNonstandard, rfl, rfl, fun _ => requestRule_nonstandard (by decide), fun _ => rfl⟩
  | setupNonstandardReservedType code a =>
    exact ⟨3, code, a, reqNonstandard, rfl, rfl, fun _ => requestRule_nonstandard (by decide), fun _ => rfl⟩
  | _ => cases h

theorem portOf_of_setupArgs (h : setupArgs i = some a) : portOf i = .setup := by
  unfold setupArgs at h
  split at h
  iterate 15 rfl
  cases h

theorem SetupMeaning.packet (m : SetupMeaning i t code a rule) : setupOf i = packSetup t code a :=
  (congrArg packetOfBytes m.encoding).trans (packetOfBytes_encodeSetup t code a)

/-! ### A disabled EP0 (O30) -/

theorem State.receiveSetup_disabled (off : (s.ep 0).state = .disabled) :
    s.receiveSetup p rule = (s.discardSetup 0 8).ackSetup 0 := if_pos off

/-- Settles O30: a disabled EP0 only empties the bank and acknowledges the status. -/
theorem setupOnDisabledEp0IsDiscarded : Obligations.SetupOnDisabledEp0IsDiscarded := by
  intro i s port off
  obtain ⟨t, code, a, rule, m⟩ := setupMeaning_of_port port
  refine ⟨_, (m.meaning s).trans (congrArg _ (State.receiveSetup_disabled off)), rfl, ?_, fun j hj => ?_⟩
  · simp
  · simp [hj]

/-! ### An OUT data stage (O31) -/

/-- With an OUT data stage announced, EP0's SETUP stage ends in a stall or in waiting for the data (R230 to R232). -/
theorem State.receiveSetup_outData (enabled : (s.ep 0).state ≠ .disabled) (data : outData a = true) :
    s.receiveSetup (packSetup t code a) rule =
      if s.cfg.ep0ScratchSize < a.length.toNat then (s.afterSetup (packSetup t code a)).ep0Stall
      else (s.afterSetup (packSetup t code a)).setEpState 0 .ep0DataOut := by
  have announced : (packSetup t code a).dirIn = false ∧ (packSetup t code a).length ≠ 0 := by
    simpa [outData] using data
  rw [State.receiveSetup, if_neg enabled, State.setupAccept_eq, if_pos announced, packSetup_length]
  rfl

/-- Settles O31, by whether the data fit the scratch buffer. -/
theorem setupWithOutDataWaits : Obligations.SetupWithOutDataWaits := by
  intro i a s args enabled data
  obtain ⟨t, code, b, rule, m⟩ := setupMeaning_of_port (portOf_of_setupArgs args)
  obtain rfl : a = b := Option.some.inj (args.symm.trans m.args)
  refine ⟨_, m.meaning s, ?_⟩
  rw [State.receiveSetup_outData enabled data, m.packet]
  generalize packSetup t code a = p
  have done := s.afterSetup_done p
  refine ⟨fun fits => ?_, fun large => ?_⟩
  · rw [if_neg (Nat.not_lt.mpr fits)]
    refine ⟨?_, done.frame.ep0 rfl fun j hj => ?_⟩
    · rw [State.setEpState_ep, if_pos rfl, done.ep]; rfl
    · rw [State.setEpState_ep, if_neg hj]
  · rw [if_pos large]
    exact done.stalls

/-! ### The packet in EP0's SETUP bank (O6) -/

/-- With all eight bytes in the bank EP0 reads exactly them. -/
theorem State.fifoReadSetup_full (full : (s.ep 0).fifo.setup.length = 8) :
    s.fifoReadSetup 0 8 = ((s.ep 0).fifo.setup, s.discardSetup 0 8) := by
  have bytes : s.bankBytes (s.ep 0).fifo.setup 8 = (s.ep 0).fifo.setup := by
    rw [State.bankBytes, full, List.take_of_length_le (Nat.le_of_eq full)]
    exact List.append_nil _
  rw [State.fifoReadSetup, bytes, full]
  rfl

/-- EP0 runs the request that its packet dispatches to (R234). -/
theorem State.setupAccept_dispatch (s : State) (p : SetupPacket) :
    (s.discardSetup 0 8).setupAccept p (fun v => v.ep0Dispatch none) =
      (s.discardSetup 0 8).setupAccept p fun v => v.runRequest (requestRule p) none := by
  have ctrl : ((s.discardSetup 0 8).setupIdle p).dev.ctrl = p := (s.afterSetup_done p).ctrl
  rw [State.setupAccept_eq, State.setupAccept_eq, State.ep0Dispatch, ctrl]

/-- EP0's SETUP handler on a bank of eight bytes is EP0 receiving the packet they spell (R230). -/
theorem State.setupReceived_full (count : (s.ep 0).sta.bytecnt = 8) (full : (s.ep 0).fifo.setup.length = 8) :
    s.setupReceived =
      s.receiveSetup (packetOfBytes (s.ep 0).fifo.setup) (requestRule (packetOfBytes (s.ep 0).fifo.setup)) := by
  have eight : (8 : Len).toNat = 8 := rfl
  rw [State.setupReceived, State.receiveSetup, count, State.fifoReadSetup_full full, eight, ← State.setupAccept_dispatch]
  rfl

/-- With the SETUP bit alone in its sample, EP0's interrupt is the SETUP handler (R308). -/
theorem State.handle_ep0_setup {n : Len} (sample : (s.ep 0).enabledSta = ⟨false, false, false, true, n⟩) :
    s.handle (.ep 0) = s.setupReceived := by
  have before : s.beforeSetup 0 = s := by rw [State.beforeSetup, sample]; rfl
  rw [State.handle_ep, before, sample]
  rfl

/-- EP0's interrupt executes the instruction that the SETUP bank holds. -/
theorem exec_of_setupBank (port : portOf i = .setup) (wf : i.wellFormed = true)
    (sample : (s.ep 0).enabledSta = ⟨false, false, false, true, 8⟩) (bank : (s.ep 0).fifo.setup = encode i) :
    exec i s = .next (s.handle (.ep 0)) := by
  obtain ⟨t, code, a, rule, m⟩ := setupMeaning_of_port port
  have count : (s.ep 0).sta.bytecnt = 8 := (congrArg EpSta.bytecnt sample :)
  have full : (s.ep 0).fifo.setup.length = 8 := by rw [bank, m.encoding]; exact bytesOfNat_length 8 _
  have packet : packetOfBytes (s.ep 0).fifo.setup = packSetup t code a := (congrArg packetOfBytes bank).trans m.packet
  rw [m.meaning, State.handle_ep0_setup sample, State.setupReceived_full count full, packet, m.dispatched wf]

/-- Settles O6: EP0's source is the first of the pass still pending. -/
theorem stepRunsSetupPacket : Obligations.StepRunsSetupPacket := by
  intro s i later below port wf stack quiet pending sample bank
  have dispatched : s.dispatchStep (.ep 0 :: later) below = { s with stack := .dispatch later :: below }.handle (.ep 0) :=
    State.dispatchStep_of_pending (pre := []) nofun pending
  have runs := exec_of_setupBank (s := { s with stack := .dispatch later :: below }) port wf sample bank
  rw [step_of_dispatch stack quiet, dispatched, runs]
  rfl

end Sys2Proof.Machine
end

section
/-! SUPPORT. The address and the configuration (O35, O41, O42): SET_ADDRESS records the address, TX-done of its status packet
applies it, and the return of `on_setup` ends a request of the class driver. -/

namespace Sys2Proof.Machine

variable {s u : State} {p : SetupPacket}

/-! ### SET_ADDRESS (O35) -/

/-- The checks of SET_ADDRESS (R248). -/
def setsAddress (p : SetupPacket) : Prop := p.recip = 0 ∧ p.index = 0 ∧ p.length = 0 ∧ p.value.toNat ≤ 127

/-- The address waits for the status packet of its request (R248). -/
def State.recordAddress (u : State) (x : BitVec 7) : State := u.modDev fun d => { d with pendingAddr := x }

theorem reqSetAddress_of_sets (out : Option (List Byte)) (h : setsAddress u.dev.ctrl) :
    reqSetAddress out u = (u.recordAddress (u.dev.ctrl.value.extractLsb' 0 7), .address) := if_pos h

theorem reqSetAddress_of_not_sets (out : Option (List Byte)) (h : ¬setsAddress u.dev.ctrl) :
    reqSetAddress out u = (u, .stall) := if_neg h

/-- EP0 answers with a zero-length packet after which the recorded address is to be applied. -/
theorem SetupDone.address (done : SetupDone p s u) (x : BitVec 7) :
    ((u.recordAddress x).ep0Finish p .address).ep 0 = ep0After (s.ep 0) .ep0Address (some []) ∧
      SetupFrame p x [] s ((u.recordAddress x).ep0Finish p .address) := by
  have recorded : SetupFrame p x [] s (u.recordAddress x) :=
    ⟨congrArg (State.recordAddress · x) done.frame.rest, done.frame.other, done.frame.handles, done.frame.requests⟩
  refine ⟨?_, recorded.ep0 rfl fun j hj => ?_⟩
  · simp [State.recordAddress, State.ep0Finish, done.ep, ep0After, Fifo.hand]
  · simp [State.ep0Finish, hj]

/-- Settles O35, by the checks of the request. -/
theorem setAddressOnlyRecords : Obligations.SetAddressOnlyRecords := by
  intro a s enabled noData p good
  obtain ⟨packet, u, done, runs⟩ := exec_setup_runs (i := .setupSetAddress a) rfl rfl enabled noData
  have ctrl : u.dev.ctrl = packSetup 0 0x05 a := done.ctrl.trans packet
  have value : u.dev.ctrl.value = a.value := by rw [ctrl, packSetup_value]
  have sets : setsAddress u.dev.ctrl ↔ good := by
    rw [ctrl]
    simp only [setsAddress, packSetup_recip, packSetup_index, packSetup_length, packSetup_value, good]
  refine ⟨_, runs, fun ok => ?_, fun bad => done.run_stall (reqSetAddress_of_not_sets none (mt sets.mp bad))⟩
  rw [State.runRequest, reqSetAddress_of_sets none (sets.mpr ok), value, done.ctrl]
  obtain ⟨ep, frame⟩ := done.address (a.value.extractLsb' 0 7)
  exact ⟨ep, frame, (congrArg State.devAddr frame.rest :), (congrArg (·.dev.state) frame.rest :)⟩

/-! ### Applying the address (O41) -/

theorem writeLoop_dev (i : EpIx) (k : Nat) (s : State) : (writeLoop i k s).dev = s.dev := by
  induction k generalizing s with
  | zero => rfl
  | succ k ih =>
    unfold writeLoop
    split
    · rfl
    · next h _ =>
      have owed : ((s.countSent h).oweZlp i h).dev = s.dev := by
        unfold State.oweZlp
        split <;> rfl
      dsimp only
      split
      · exact owed
      · rw [ih, State.complete_dev, owed]

/-- EP0 sends, so starting its queue leaves the Device record. -/
theorem startTransfer_ep0_dev (s : State) : (s.startTransfer 0).dev = s.dev := by
  unfold State.startTransfer
  rw [State.hasDma_zero, show s.isIn 0 = true from rfl]
  split
  · rfl
  · exact writeLoop_dev 0 _ s

theorem State.withAddress_dev (s : State) : s.withAddress.dev = { s.dev with
    addr := s.dev.pendingAddr, state := if s.dev.pendingAddr = 0 then .default else .address } := by
  have state : (if s.dev.pendingAddr ≠ 0 then DevState.address else .default) =
      if s.dev.pendingAddr = 0 then .default else .address := ite_not ..
  rw [← state]
  rfl

/-- TX-done of the status packet of SET_ADDRESS (R262, R310). -/
theorem State.txDone_address (waits : (s.ep 0).state = .ep0Address) :
    s.txDone 0 = (s.withAddress.setEpState 0 .idle).startTransfer 0 := by
  rw [← State.applyAddress_eq]
  unfold State.txDone
  rw [waits]

/-- Settles O41: the address is written, and then EP0's queue starts from `Idle`. -/
theorem txDoneAppliesTheAddress : Obligations.TxDoneAppliesTheAddress := by
  intro s waits p t
  have next : t = (s.withAddress.setEpState 0 .idle).startTransfer 0 := State.txDone_address waits
  have ep : (s.withAddress.setEpState 0 .idle).ep 0 = { s.ep 0 with state := .idle } := State.modEp_ep_same ..
  have frame := (EpFrame.start 0 (s.withAddress.setEpState 0 .idle)).startTransfer
  have mem := StoreRule.startTransfer_ep0_mem (s.withAddress.setEpState 0 .idle)
  have settled := State.startTransfer_settled (s.withAddress.setEpState 0 .idle) (congrArg Endpoint.state ep)
  rw [← next] at frame mem settled
  have devAddr : t.devAddr = s.withAddress.devAddr := frame.devAddr
  have dev : t.dev = s.withAddress.dev := next ▸ startTransfer_ep0_dev (s.withAddress.setEpState 0 .idle)
  have written : { s with devAddr := t.devAddr, dev := t.dev } = s.withAddress := by rw [devAddr, dev]; rfl
  refine ⟨devAddr, dev.trans s.withAddress_dev, settled, fun j hj => ?_, fun b => congrArg (readByte · b) mem,
    fun empty => ?_, ?_⟩
  · exact (frame.other j hj).trans (State.modEp_ep_other _ _ _ _ hj)
  · have idle : t = s.withAddress.setEpState 0 .idle :=
      next.trans (State.startTransfer_nil (by rw [ep]; exact empty))
    refine ⟨?_, by rw [idle, ep]⟩
    rw [devAddr, dev, idle]
    rfl
  · rw [written]
    exact next

/-! ### The return of `on_setup` (O42) -/

/-- A step that collected no callback releases none (R12). -/
theorem State.release_of_none (empty : s.cbList = []) : s.release = s := by
  have stack : s.cbList.map .pending ++ s.stack = s.stack := by rw [empty]; rfl
  rw [State.release, stack, ← empty]

/-- A standard SET_CONFIGURATION that `on_setup` has accepted (R290). -/
def State.configures (s : State) : Prop :=
  s.dev.ctrl.rtype = 0 ∧ s.dev.ctrl.request = codeSetConfiguration ∧
    (s.dev.state = .address ∨ s.dev.state = .configured)

/-- The configuration number is the low byte of `value` (R81, R252). -/
theorem SetupPacket.configuration_eq (p : SetupPacket) : p.value.extractLsb' 0 8 = p.extractLsb' 16 8 := by
  refine BitVec.eq_of_getLsbD_eq fun k hk => ?_
  have inValue : k < 16 := by omega
  simp [SetupPacket.value, inValue]

theorem State.onSetupReturn_refused {r : Result} (refused : r ≠ .ok) : s.onSetupReturn r = s.stallEp 0 := if_pos refused

theorem State.onSetupReturn_configures (accepted : s.configures) :
    s.onSetupReturn .ok = { s with dev := { s.dev with
      state := if s.dev.ctrl.extractLsb' 16 8 = 0 then .address else .configured } } := by
  obtain ⟨standard, code, addressed⟩ := accepted
  rw [State.onSetupReturn, if_neg (not_not.mpr rfl), if_pos ⟨standard, code⟩, State.configureDevice, if_pos addressed,
    State.modDev, SetupPacket.configuration_eq, ite_not]

theorem State.onSetupReturn_nothing (other : ¬s.configures) : s.onSetupReturn .ok = s := by
  rw [State.onSetupReturn, if_neg (not_not.mpr rfl)]
  split
  · next request => exact if_neg fun addressed => other ⟨request.1, request.2, addressed⟩
  · rfl

/-- The step in which `on_setup` returns (R71, R237). -/
theorem step_of_onSetup {c : SetupPacket} {out : Option (List Byte)} {below : List Ctx} {r : Result} {rest : List Input}
    (stack : s.stack = .active (.onSetup c out) :: below) (input : s.input = .ret r :: rest) :
    step s = .next ({ s with stack := below, input := rest }.onSetupReturn r).release := by
  rw [step_of_idle (.inr ⟨_, _, stack⟩), environmentStep, input]
  dsimp only
  rw [returnCallback]
  dsimp only
  rw [stack]

/-- Settles O42, by the answer of `on_setup` and the request it was for. -/
theorem onSetupReturnActs : Obligations.OnSetupReturnActs := by
  intro s c out below r rest stack input empty back isSet
  refine ⟨_, step_of_onSetup stack input, fun refused => ?_, fun ok set => ?_, fun ok other => ?_⟩
  · rw [State.onSetupReturn_refused refused]
    exact ⟨rfl, fun enabled => State.stallEp_state (s := back) enabled⟩
  · rw [ok, State.onSetupReturn_configures (s := back) set]
    exact State.release_of_none empty
  · rw [ok, State.onSetupReturn_nothing (s := back) other]
    exact State.release_of_none empty

end Sys2Proof.Machine
end

section
/-! SUPPORT. The handlers of the device state machine (O38 to O40): suspend and resume, by whether the device sleeps already,
and the two handlers that only acknowledge. -/

namespace Sys2Proof.Machine

variable {s : State}

/-! ### Suspend and resume (O38, O39) -/

/-- Suspending a sleeping device acknowledges only (R288). -/
theorem State.handle_suspend_of_asleep (asleep : s.dev.state = .suspended) :
    s.handle .suspend = { s with intPending := { s.intPending with suspend := false } } := if_pos asleep

/-- Suspending an awake device saves its state, gates the clock and tells a bound class driver (R282). -/
theorem State.handle_suspend_of_awake (awake : s.dev.state ≠ .suspended) : s.handle .suspend = { s with
    intPending := { s.intPending with suspend := false }
    dev := { s.dev with prevstate := s.dev.state, state := .suspended, clkGated := true }
    devCtl := { s.devCtl with clkgate := true }
    cbList := s.cbList ++ if s.dev.driver = nullRef then [] else [.onSuspend] } := by
  rw [State.handle, State.suspend, if_neg awake, State.notify_eq]
  rfl

/-- Resuming an awake device acknowledges only (R288). -/
theorem State.handle_resume_of_awake (awake : s.dev.state ≠ .suspended) :
    s.handle .resume = { s with intPending := { s.intPending with resume := false } } := if_neg awake

/-- Resuming a sleeping device acknowledges and is `DeviceResume` (R284, R286). -/
theorem State.handle_resume_of_asleep (asleep : s.dev.state = .suspended) : s.handle .resume = { s with
    intPending := { s.intPending with resume := false }
    dev := { s.dev with state := s.dev.prevstate, clkGated := false }
    devCtl := { s.devCtl with clkgate := false }
    cbList := s.cbList ++ if s.dev.driver = nullRef then [] else [.onResume] } := by
  rw [State.handle, State.resume, if_pos asleep, State.deviceResume_eq]

/-- Settles O38: each handler in the state it acts in. -/
theorem suspendSavesAndResumeRestores : Obligations.SuspendSavesAndResumeRestores := fun _ =>
  ⟨State.handle_suspend_of_awake, State.handle_resume_of_asleep⟩

/-- Settles O39: each handler in the state it leads to. -/
theorem suspendAndResumeAreIdempotent : Obligations.SuspendAndResumeAreIdempotent := fun _ =>
  ⟨State.handle_suspend_of_asleep, State.handle_resume_of_awake⟩

/-! ### Start of frame and upstream resume (O40) -/

theorem State.handle_sof (s : State) :
    s.handle .sof = { s with intPending := { s.intPending with sof := false } } := rfl

theorem State.handle_upResume (s : State) :
    s.handle .upResume = { s with intPending := { s.intPending with upresume := false } } := rfl

/-- Settles O40: the frame number is what O27 says a SOF writes. -/
theorem sofAndUpstreamResumeOnlyAcknowledge : Obligations.SofAndUpstreamResumeOnlyAcknowledge := by
  refine fun s => ⟨s.handle_sof, s.handle_upResume, fun f t sent => ?_⟩
  obtain ⟨-, -, sof, -⟩ := busEventsWriteOnlyTheirStatus f s
  cases sof.symm.trans sent
  rfl

end Sys2Proof.Machine
end

section
/-! SUPPORT. The invariants right after reset (O60). They hold after engine initialisation with any parameters that R8
allows: every endpoint is `Disabled` with an empty queue and all registers 0, and no request exists (R340). -/

namespace Sys2Proof.Machine

variable {p : Params} {i : EpIx} {h : Ref}

/-! ### What initialisation leaves of endpoints and requests (R22, R30) -/

/-- EP0 differs from the other endpoints by its reservation and direction only. -/
theorem State.init_ep_eq (p : Params) (i : EpIx) : (State.init p).ep i =
    { Endpoint.reset with reserved := decide (i = 0), dir := if i = 0 then .bidir else .dirOut } := by
  rw [State.init_ep]
  by_cases h0 : i = 0
  · rw [if_pos h0, h0]
    rfl
  · simp only [h0, decide_false]
    rfl

theorem State.init_queue (p : Params) (i : EpIx) : ((State.init p).ep i).queue = [] := by rw [State.init_ep_eq]; rfl

theorem State.init_not_queued (queued : h ∈ ((State.init p).ep i).queue) : False := by
  rw [State.init_queue] at queued
  cases queued

theorem State.init_peek (p : Params) (i : EpIx) : (State.init p).peek i = none := by
  rw [State.peek_eq, State.init_queue]
  rfl

theorem State.init_hasReq (p : Params) (h : Ref) : (State.init p).hasReq h = false := rfl

theorem State.init_req (p : Params) (h : Ref) : (State.init p).req h = Request.fresh :=
  State.req_of_not_hasReq _ h (State.init_hasReq p h)

/-! ### The invariants -/

theorem Endpoint.reset_consistent (i : EpIx) (reserved : Bool) (dir : EpDir) :
    ({ Endpoint.reset with reserved := reserved, dir := dir } : Endpoint).consistent i :=
  ⟨rfl, nofun, fun _ => ⟨nofun, nofun, nofun⟩, rfl, nofun⟩

theorem State.init_endpointsConsistent (pos : 1 ≤ p.numEp) : (State.init p).endpointsConsistent :=
  ⟨pos, fun i => by rw [State.init_ep_eq]; exact Endpoint.reset_consistent i _ _⟩

theorem State.init_queuesConsistent (pos : 1 ≤ p.numEp) : (State.init p).queuesConsistent := by
  refine ⟨pos, fun i => ⟨?_, fun _ => State.init_queue p i⟩⟩
  rw [State.init_ep_eq]
  rintro (sending | receiving)
  · cases sending
  · cases receiving

/-- The address is 0 and disabled, pull-up and clock gate are off on both sides, and no endpoint holds a packet. -/
theorem State.init_mirrored (p : Params) : (State.init p).mirrored := by
  refine ⟨?_, rfl, rfl, rfl, rfl, rfl, rfl⟩
  have none : ∀ k ∈ (State.init p).epList, ¬ ((State.init p).ep k).rxpend = true := fun k _ => by
    rw [State.init_ep_eq]
    exact nofun
  exact (List.any_eq_false.mpr none).symm

/-- No request exists and none is queued. -/
theorem State.init_ownership (p : Params) : (State.init p).ownership where
  distinct := List.nodup_nil
  issued h known := by cases (State.init_hasReq p h).symm.trans known
  queued _ _ hh := (State.init_not_queued hh).elim
  once i := by rw [State.init_queue]; exact List.nodup_nil
  apart _ _ _ _ hh := (State.init_not_queued hh).elim
  onQueue h engine := by rw [State.init_req] at engine; cases engine

/-- Channels and packet interrupts are off, and no request is counted. -/
theorem State.init_between (p : Params) (i : EpIx) : (State.init p).between i where
  counts _ hh := (State.init_not_queued hh).elim
  tail _ hh := (State.init_not_queued (List.mem_of_mem_tail hh)).elim
  dmaIe ie := by rw [State.init_ep_eq] at ie; cases ie
  rxIe ie := by rw [State.init_ep_eq] at ie; cases ie
  owned := State.init_ownership p
  parked := by rw [State.init_ep_eq]; rfl

theorem State.init_accounted (pos : 1 ≤ p.numEp) (capacity : p.dmaFifoCap ≠ 0) : (State.init p).accounted :=
  State.accounted_of_at pos capacity (State.init_ownership p) fun i =>
    (State.init_between p i).accountedAt_of_rested fun h hp => by cases (State.init_peek p i).symm.trans hp

theorem State.init_descOwner {o : Option EpIx} (listed : o ∈ (State.init p).descOwner) : o = none :=
  List.eq_of_mem_replicate listed

/-- Settles O60: reset is initialisation with parameters that have an endpoint and a DMA capacity (R8). -/
theorem invariantsHoldAtReset : Obligations.InvariantsHoldAtReset := by
  have pos : 1 ≤ Params.nominal.numEp := by decide
  have capacity : Params.nominal.dmaFifoCap ≠ 0 := by decide
  exact ⟨reset_mem_wf, State.init_endpointsConsistent pos, State.init_queuesConsistent pos, State.init_mirrored _,
    State.init_accounted pos capacity, nofun, nofun, fun _ => State.init_descOwner⟩

end Sys2Proof.Machine
end
